-- ==== Sys2Proof/Word.lean ====
section
/-! DEFINITION. The word types of the engine (00_scope.md R10) and their plainest arithmetic. -/

namespace Sys2Proof

/-- A byte: 8 bits, bit 7 the most significant (R10). -/
abbrev Byte := BitVec 8

/-- A 32-bit command, register or read-port word (10_state.md R22). -/
abbrev Word := BitVec 32

/-- A byte string `s`, indexed from `s[0]`, the byte that is on the wire first (R10). -/
abbrev Bytes := List Byte

end Sys2Proof
end

