-- ==== Sys2Proof/Config.lean ====
section
/-! DEFINITION. The parameters of the engine (00_scope.md R8) and the code-type table (30_encoding.md R124 to R127).

Every parameter is a field of `Params`, also one with a single legal value; the model takes a parameter set as an argument
(it is carried in State, and no event changes it), and WellFormed.lean says which sets are legal. -/

namespace Sys2Proof

/-- The medium a record's field A selects (30_encoding.md R124). -/
inductive Medium where
  | electricity
  | abstract
deriving DecidableEq, Repr

/-- The code-types of 30_encoding.md R126. "Unknown" is not among them: a record's code-type is an `Option CodeType`. -/
inductive CodeType where
  | voltageL1
  | voltageL2
  | voltageL3
  | currentL1
  | currentL2
  | currentL3
  | activePowerPlus
  | activePowerMinus
  | activeEnergyPlus
  | activeEnergyMinus
  | reactiveEnergyPlus
  | reactiveEnergyMinus
  | powerFactor
  | timestamp
  | serialNumber
  | deviceName
deriving DecidableEq, Repr

/-- One row of OBIS_TABLE (30_encoding.md R127): the medium and the fields C and D give the code-type. -/
structure ObisRow where
  medium : Medium
  c : Byte
  d : Byte
  codeType : CodeType
deriving DecidableEq, Repr

/-- A parameter set: the 35 parameters of 00_scope.md R8, in its order. -/
structure Params where
  /-- BUF_CAP: hard cap of the TelegramBuffer in bytes. -/
  bufCap : Nat
  /-- TIME_BITS: width of NOW and LAST_ARRIVAL. Its one legal value is the width that State gives them. -/
  timeBits : Nat
  /-- TIMEOUT_RESET: reset value of TIMEOUT, in ticks. -/
  timeoutReset : Nat
  /-- MBUS_START: the start-marker byte, both copies. -/
  mbusStart : Byte
  /-- MBUS_STOP: the stop-marker byte. -/
  mbusStop : Byte
  /-- MBUS_INTRO: intro length (start, L, L, start). -/
  mbusIntro : Nat
  /-- MBUS_FULL_HDR: full frame header length; the payload starts here. -/
  mbusFullHdr : Nat
  /-- MBUS_FOOTER: footer length; its last byte is the stop marker. -/
  mbusFooter : Nat
  /-- DLMS_CIPHER_ID: the general-glo-ciphering tag. -/
  dlmsCipherId : Byte
  /-- DLMS_SYST_LEN: system-title length. -/
  dlmsSystLen : Nat
  /-- DLMS_LEN_EXT: the "extended" length sentinel. -/
  dlmsLenExt : Byte
  /-- DLMS_HDR_EXT: extra header width in the extended form. -/
  dlmsHdrExt : Nat
  /-- DLMS_LEN_CORR: the header-overlap correction constant. -/
  dlmsLenCorr : Nat
  /-- DLMS_SEC_CTRL: the single supported security-control byte. -/
  dlmsSecCtrl : Byte
  /-- DLMS_HDR: short-form header length. -/
  dlmsHdr : Nat
  /-- DLMS_MIN: the minimum header size. -/
  dlmsMin : Nat
  /-- TAG_LEN: length of the trailing authentication tag. -/
  tagLen : Nat
  /-- PT_MARK0: structural marker at plaintext index 0. -/
  ptMark0 : Byte
  /-- PT_MARK5: structural marker at plaintext index 5. -/
  ptMark5 : Byte
  /-- DEC_START: the fixed decode-start offset. -/
  decStart : Nat
  /-- TAG_OCTET: the "octet string" data-type tag. -/
  tagOctet : Byte
  /-- TAG_U32: the "double-long-unsigned" data-type tag. -/
  tagU32 : Byte
  /-- TAG_U16: the "long-unsigned" data-type tag. -/
  tagU16 : Byte
  /-- OBIS_CODE_LEN: OBIS code length. -/
  obisCodeLen : Nat
  /-- MED_ELEC: field-A value "Electricity". -/
  medElec : Byte
  /-- MED_ABSTRACT: field-A value "Abstract". -/
  medAbstract : Byte
  /-- OBIS_TABLE: the code-type table. -/
  obisTable : List ObisRow
  /-- META_SENTINEL: trailing-metadata sentinel. -/
  metaSentinel : Byte
  /-- META_SKIP: the fixed additional span skipped after the metadata sentinel. -/
  metaSkip : Nat
  /-- REC_BREAK: record terminator length. -/
  recBreak : Nat
  /-- SCALER_OFF: scaler-byte offset from the value's start. -/
  scalerOff : Nat
  /-- SCALE10: scaler sentinel for divide-by-10. -/
  scale10 : Byte
  /-- SCALE100: scaler sentinel for divide-by-100. -/
  scale100 : Byte
  /-- KEY_LEN: AES key length in bytes. Its one legal value is the number of bytes of KEY in State. -/
  keyLen : Nat
  /-- NONCE_LEN: nonce length in bytes. Its one legal value is the length of the nonce of 42_envelope.md R220. -/
  nonceLen : Nat
deriving DecidableEq, Repr

/-- The default rows of OBIS_TABLE (30_encoding.md R127). -/
def Config.obisTable : List ObisRow :=
  [ ⟨.electricity, 0x20#8, 0x07#8, .voltageL1⟩,
    ⟨.electricity, 0x34#8, 0x07#8, .voltageL2⟩,
    ⟨.electricity, 0x48#8, 0x07#8, .voltageL3⟩,
    ⟨.electricity, 0x1F#8, 0x07#8, .currentL1⟩,
    ⟨.electricity, 0x33#8, 0x07#8, .currentL2⟩,
    ⟨.electricity, 0x47#8, 0x07#8, .currentL3⟩,
    ⟨.electricity, 0x01#8, 0x07#8, .activePowerPlus⟩,
    ⟨.electricity, 0x02#8, 0x07#8, .activePowerMinus⟩,
    ⟨.electricity, 0x01#8, 0x08#8, .activeEnergyPlus⟩,
    ⟨.electricity, 0x02#8, 0x08#8, .activeEnergyMinus⟩,
    ⟨.electricity, 0x03#8, 0x08#8, .reactiveEnergyPlus⟩,
    ⟨.electricity, 0x04#8, 0x08#8, .reactiveEnergyMinus⟩,
    ⟨.abstract, 0x01#8, 0x00#8, .timestamp⟩,
    ⟨.abstract, 0x60#8, 0x01#8, .serialNumber⟩,
    ⟨.abstract, 0x2A#8, 0x00#8, .deviceName⟩ ]

/-- The default value of every parameter (00_scope.md R8, column "default"). -/
def Config.defaultParams : Params where
  bufCap := 1024
  timeBits := 32
  timeoutReset := 1000
  mbusStart := 0x68#8
  mbusStop := 0x16#8
  mbusIntro := 4
  mbusFullHdr := 9
  mbusFooter := 2
  dlmsCipherId := 0xDB#8
  dlmsSystLen := 8
  dlmsLenExt := 0x82#8
  dlmsHdrExt := 2
  dlmsLenCorr := 5
  dlmsSecCtrl := 0x21#8
  dlmsHdr := 16
  dlmsMin := 16
  tagLen := 12
  ptMark0 := 0x0F#8
  ptMark5 := 0x0C#8
  decStart := 20
  tagOctet := 0x09#8
  tagU32 := 0x06#8
  tagU16 := 0x12#8
  obisCodeLen := 6
  medElec := 0x01#8
  medAbstract := 0x00#8
  obisTable := Config.obisTable
  metaSentinel := 0x0F#8
  metaSkip := 6
  recBreak := 2
  scalerOff := 5
  scale10 := 0xFF#8
  scale100 := 0xFE#8
  keyLen := 16
  nonceLen := 12

end Sys2Proof
end

