-- ==== Sys2Proof/Syntax.lean ====
section
/-! DEFINITION. The instructions: one constructor per row of spec/opcode_table.json, every operand at the width its field has
(30_encoding.md R101, R102, R105, R118), so an operand out of range cannot be written. -/

namespace Sys2Proof

/-- The engine's instructions: the eight command words, the read-port transaction, and the record decoder's three
data-type tags. -/
inductive Instr where
  /-- NOP (45_host_and_sink.md R347). -/
  | nop
  /-- FEED BYTE (40_accumulator.md R151). -/
  | feed (byte : BitVec 8)
  /-- CHECK (40_accumulator.md R157). -/
  | check
  /-- KEYB IDX, KBYTE (45_host_and_sink.md R345). -/
  | keyb (idx : BitVec 4) (kbyte : BitVec 8)
  /-- SETTO TVAL (45_host_and_sink.md R350). -/
  | setto (tval : BitVec 24)
  /-- SETCTL AUTOV (45_host_and_sink.md R352). -/
  | setctl (autov : BitVec 1)
  /-- SETIE IEV (45_host_and_sink.md R354). -/
  | setie (iev : BitVec 3)
  /-- CLRIRQ CLR (45_host_and_sink.md R356). -/
  | clrirq (clr : BitVec 3)
  /-- READ a, with A = a[11:2] (45_host_and_sink.md R358). -/
  | read (a : BitVec 10)
  /-- The double-long-unsigned tag (44_record_decoder.md R301). -/
  | u32
  /-- The long-unsigned tag (44_record_decoder.md R302). -/
  | u16
  /-- The octet-string tag (44_record_decoder.md R304). -/
  | octet
deriving DecidableEq, Repr

/-- What one of the engine's three decoders is given: a command word, a read address, or a data-type tag byte. -/
inductive Encoding where
  /-- A word on the command port (R100). -/
  | cmd (w : BitVec 32)
  /-- A byte address on the read port (R105). -/
  | read (a : BitVec 12)
  /-- A data-type tag of an OBIS record (R118). -/
  | tag (b : Byte)
deriving DecidableEq, Repr

end Sys2Proof
end

