-- ==== Sys2Proof/WellFormed.lean ====
section
/-! DEFINITION. Which parameter sets are legal (00_scope.md R8, R9) and which instructions are well formed.

An illegal parameter set has no meaning in the spec and is refused when the model is built (60_exceptions.md R402): a machine
can be given a `LegalParams` only. Every operand of an instruction has the exact width of its field, so no further check
on an instruction is left. -/

namespace Sys2Proof

/-- BUF_CAP is 1 .. 2^32-1. -/
def Params.bufCapOk (p : Params) : Bool := decide (1 ≤ p.bufCap) && decide (p.bufCap < 2 ^ 32)

/-- TIMEOUT_RESET is 0 .. 2^24-1. -/
def Params.timeoutResetOk (p : Params) : Bool := decide (p.timeoutReset < 2 ^ 24)

/-- MBUS_FULL_HDR ≥ MBUS_INTRO. -/
def Params.fullHdrOk (p : Params) : Bool := decide (p.mbusIntro ≤ p.mbusFullHdr)

/-- MBUS_FOOTER ≥ 1. -/
def Params.footerOk (p : Params) : Bool := decide (1 ≤ p.mbusFooter)

/-- DLMS_LEN_CORR is 0..65535. -/
def Params.lenCorrOk (p : Params) : Bool := decide (p.dlmsLenCorr ≤ 65535)

/-- TAG_LEN is 12..16. -/
def Params.tagLenOk (p : Params) : Bool := decide (12 ≤ p.tagLen) && decide (p.tagLen ≤ 16)

/-- DEC_START ≥ 6. -/
def Params.decStartOk (p : Params) : Bool := decide (6 ≤ p.decStart)

/-- TAG_OCTET, TAG_U32 and TAG_U16 are pairwise distinct. -/
def Params.tagsOk (p : Params) : Bool :=
  decide (p.tagU32 ≠ p.tagOctet) && decide (p.tagU16 ≠ p.tagOctet) && decide (p.tagU16 ≠ p.tagU32)

/-- MED_ELEC ≠ MED_ABSTRACT. -/
def Params.mediaOk (p : Params) : Bool := decide (p.medElec ≠ p.medAbstract)

/-- OBIS_TABLE has 15 distinct (C, D) pairs, so at most one code-type per (medium, C, D). -/
def Params.tablePairsOk (p : Params) : Bool :=
  decide (p.obisTable.length = 15) && decide ((p.obisTable.map fun r => (r.c, r.d)).Nodup)

/-- No row of OBIS_TABLE is PowerFactor: "PowerFactor has no row" (30_encoding.md R127, 00_scope.md R6).
DEDUCED, log entry 5. -/
def Params.noPowerFactor (p : Params) : Bool := p.obisTable.all fun r => decide (r.codeType ≠ .powerFactor)

/-- META_SKIP is 0..255. -/
def Params.metaSkipOk (p : Params) : Bool := decide (p.metaSkip ≤ 255)

/-- TIME_BITS is 32, the width that State gives NOW and LAST_ARRIVAL. -/
def Params.timeBitsOk (p : Params) : Bool := decide (p.timeBits = 32)

/-- MBUS_INTRO is 4. -/
def Params.introOk (p : Params) : Bool := decide (p.mbusIntro = 4)

/-- The envelope's single values: DLMS_SYST_LEN is 8, DLMS_HDR_EXT is 2, DLMS_HDR and DLMS_MIN are 16. -/
def Params.envelopeOk (p : Params) : Bool :=
  decide (p.dlmsSystLen = 8) && decide (p.dlmsHdrExt = 2) && decide (p.dlmsHdr = 16) && decide (p.dlmsMin = 16)

/-- The record's single values: OBIS_CODE_LEN is 6, META_SENTINEL is 0x0F, REC_BREAK is 2, SCALER_OFF is 5, SCALE10 is 0xFF,
SCALE100 is 0xFE. -/
def Params.recordOk (p : Params) : Bool :=
  decide (p.obisCodeLen = 6) && decide (p.metaSentinel = 0x0F#8) && decide (p.recBreak = 2) && decide (p.scalerOff = 5) &&
    decide (p.scale10 = 0xFF#8) && decide (p.scale100 = 0xFE#8)

/-- The cipher's single values: KEY_LEN is 16, the bytes of KEY in State; NONCE_LEN is 12. -/
def Params.cipherOk (p : Params) : Bool := decide (p.keyLen = 16) && decide (p.nonceLen = 12)

/-- Every constraint of 00_scope.md R8's column "legal values" and of R9. -/
def Params.legal (p : Params) : Bool :=
  p.bufCapOk && p.timeoutResetOk && p.fullHdrOk && p.footerOk && p.lenCorrOk && p.tagLenOk && p.decStartOk &&
    p.tagsOk && p.mediaOk && p.tablePairsOk && p.noPowerFactor && p.metaSkipOk && p.timeBitsOk && p.introOk &&
    p.envelopeOk && p.recordOk && p.cipherOk

/-- A parameter set with the proof that it is legal: the only kind a machine can be built over (R9, R402). -/
abbrev LegalParams := { p : Params // p.legal = true }

/-- Building a machine's parameter set: an illegal one is refused (R9). -/
def Params.build (p : Params) : Option LegalParams :=
  if h : p.legal = true then some ⟨p, h⟩ else none

/-- The default parameter set, which is legal. -/
def Config.defaultLegal : LegalParams := ⟨Config.defaultParams, by decide⟩

/-- Well-formedness of an instruction. Each operand's type is exactly as wide as its field (30_encoding.md R102), so every
instruction is well formed; the match names every constructor so that a new one must be considered here. -/
def Instr.wellFormed : Instr → Bool
  | .nop => true
  | .feed _ => true
  | .check => true
  | .keyb _ _ => true
  | .setto _ => true
  | .setctl _ => true
  | .setie _ => true
  | .clrirq _ => true
  | .read _ => true
  | .u32 => true
  | .u16 => true
  | .octet => true

end Sys2Proof
end

