-- ==== Sys2Proof/Decode.lean ====
section
/-! DEFINITION. The three decoders (command words, read addresses, data-type tags), each total and rejecting by name, and the
encoder (30_encoding.md R100 to R106, R118). -/

namespace Sys2Proof

/-- Why an encoding is no instruction. -/
inductive DecodeReject where
  /-- A command word with OP 0x08 .. 0xFF (R101). -/
  | unassignedOpcode
  /-- A command word with an assigned OP and a reserved operand bit set (R101). -/
  | reservedBitSet
  /-- A data-type tag other than TAG_U32, TAG_U16 and TAG_OCTET (R118). -/
  | unknownTag
deriving DecidableEq, Repr

/-- An instruction whose reserved operand bits are `reserved`: legal iff they are all 0 (R101, R103). -/
def withReserved {n : Nat} (reserved : BitVec n) (i : Instr) : Except DecodeReject Instr :=
  if reserved = 0 then .ok i else .error .reservedBitSet

/-- The command-word decoder: the opcode map of R101. -/
def decodeCmd (w : BitVec 32) : Except DecodeReject Instr :=
  let op := w.extractLsb' 24 8
  if op = 0x00#8 then withReserved (w.extractLsb' 0 24) .nop
  else if op = 0x01#8 then withReserved (w.extractLsb' 8 16) (.feed (w.extractLsb' 0 8))
  else if op = 0x02#8 then withReserved (w.extractLsb' 0 24) .check
  else if op = 0x03#8 then withReserved (w.extractLsb' 12 12) (.keyb (w.extractLsb' 8 4) (w.extractLsb' 0 8))
  else if op = 0x04#8 then .ok (.setto (w.extractLsb' 0 24))
  else if op = 0x05#8 then withReserved (w.extractLsb' 1 23) (.setctl (w.extractLsb' 0 1))
  else if op = 0x06#8 then withReserved (w.extractLsb' 3 21) (.setie (w.extractLsb' 0 3))
  else if op = 0x07#8 then withReserved (w.extractLsb' 3 21) (.clrirq (w.extractLsb' 0 3))
  else .error .unassignedOpcode

/-- The read-port decoder: A = a[11:2], a[1:0] ignored (R105, 10_state.md R38). Every address is a READ. -/
def decodeRead (a : BitVec 12) : Instr := .read (a.extractLsb' 2 10)

/-- The data-type tag decoder: the whole byte is compared (R118, 44_record_decoder.md R300). -/
def decodeTag (p : Params) (dt : Byte) : Except DecodeReject Instr :=
  if dt = p.tagU32 then .ok .u32
  else if dt = p.tagU16 then .ok .u16
  else if dt = p.tagOctet then .ok .octet
  else .error .unknownTag

/-- The decoder of whatever port or cursor holds the encoding. -/
def decode (p : Params) : Encoding → Except DecodeReject Instr
  | .cmd w => decodeCmd w
  | .read a => .ok (decodeRead a)
  | .tag b => decodeTag p b

/-- The encoder: the word, address or tag of each instruction, its reserved and ignored bits 0 (R101, R105, R118). -/
def encode (p : Params) : Instr → Encoding
  | .nop => .cmd (0x00#8 ++ 0#24)
  | .feed b => .cmd (0x01#8 ++ 0#16 ++ b)
  | .check => .cmd (0x02#8 ++ 0#24)
  | .keyb i b => .cmd (0x03#8 ++ 0#12 ++ i ++ b)
  | .setto t => .cmd (0x04#8 ++ t)
  | .setctl a => .cmd (0x05#8 ++ 0#23 ++ a)
  | .setie m => .cmd (0x06#8 ++ 0#21 ++ m)
  | .clrirq m => .cmd (0x07#8 ++ 0#21 ++ m)
  | .read a => .read (a ++ 0#2)
  | .u32 => .tag p.tagU32
  | .u16 => .tag p.tagU16
  | .octet => .tag p.tagOctet

/-- A row of R103: a word `w` belongs to it iff `w &&& mask = value`. -/
structure CmdRow where
  mnemonic : String
  mask : BitVec 32
  value : BitVec 32
deriving DecidableEq, Repr

/-- The rows of R103 in match and mask form. -/
def cmdRows : List CmdRow :=
  [ ⟨"NOP", 0xFFFFFFFF#32, 0x00000000#32⟩,
    ⟨"FEED", 0xFFFFFF00#32, 0x01000000#32⟩,
    ⟨"CHECK", 0xFFFFFFFF#32, 0x02000000#32⟩,
    ⟨"KEYB", 0xFFFFF000#32, 0x03000000#32⟩,
    ⟨"SETTO", 0xFF000000#32, 0x04000000#32⟩,
    ⟨"SETCTL", 0xFFFFFFFE#32, 0x05000000#32⟩,
    ⟨"SETIE", 0xFFFFFFF8#32, 0x06000000#32⟩,
    ⟨"CLRIRQ", 0xFFFFFFF8#32, 0x07000000#32⟩ ]

/-- `w` is a word of the row (R103). -/
def CmdRow.holds (r : CmdRow) (w : BitVec 32) : Bool := decide (w &&& r.mask = r.value)

/-- A command word is legal iff it belongs to a row of R103. -/
def legalCmd (w : BitVec 32) : Bool := cmdRows.any fun r => r.holds w

/-- The mnemonic of an instruction, as spec/opcode_table.json and the assembler of R107 write it. -/
def Instr.mnemonic : Instr → String
  | .nop => "NOP"
  | .feed _ => "FEED"
  | .check => "CHECK"
  | .keyb _ _ => "KEYB"
  | .setto _ => "SETTO"
  | .setctl _ => "SETCTL"
  | .setie _ => "SETIE"
  | .clrirq _ => "CLRIRQ"
  | .read _ => "READ"
  | .u32 => "U32"
  | .u16 => "U16"
  | .octet => "OCTET"

/-- The encoding an opcode-table row of `nbits` bits (in whole bytes) stands for: 32 bits are a command word, 16 bits
hold a 12-bit read address (the bits above it must be 0), 8 bits are a data-type tag. -/
def tableEncoding (nbits w : Nat) : Option Encoding :=
  if nbits = 32 then some (.cmd (BitVec.ofNat 32 w))
  else if nbits = 16 ∨ nbits = 12 then (if w < 2 ^ 12 then some (.read (BitVec.ofNat 12 w)) else none)
  else if nbits = 8 then some (.tag (BitVec.ofNat 8 w))
  else none

/-- The instruction the decoder reads from an opcode-table word, over the default parameters. -/
def decodeTableWord (nbits w : Nat) : Option Instr :=
  match tableEncoding nbits w with
  | none => none
  | some e =>
    match decode Config.defaultParams e with
    | .ok i => some i
    | .error _ => none

end Sys2Proof
end

