-- ==== Sys2Proof/Machine/State.lean ====
section
/-! DEFINITION. The state of the engine (10_state.md), its reset value (R43), the abort causes (60_exceptions.md R380 to R383),
and the reasons a step can stop. -/

namespace Sys2Proof.Machine

/-- One input event (10_state.md R20). A received byte is a CMD carrying FEED. -/
inductive Event where
  /-- The reset input is asserted. -/
  | reset
  /-- One pulse of the time-base input. -/
  | tick
  /-- A command word on the command port. -/
  | cmd (w : BitVec 32)
  /-- A read of a byte address on the read port. -/
  | read (a : BitVec 12)
deriving DecidableEq, Repr

/-- Every way a telegram can be aborted: kind and sub-cause together (60_exceptions.md R381 to R383). -/
inductive Cause where
  | framingBufferOverflow
  | framingTruncated
  | framingBadStart
  | framingLenMismatch
  | framingBadStop
  | framingHeaderShort
  | lengthUnderflow
  | lengthMismatch
  | lengthTagShort
  | cryptoNoKey
  | cryptoTagMismatch
  | structuralShort
  | structuralBadMarker
  | obisBadHeaderType
  | obisBadHeaderLen
  | obisBadMedium
  | obisBadDataType
  | obisTruncated
  | obisTsShort
  | envelopeTooShort
  | envelopeBadCipher
  | envelopeBadSystLen
  | envelopeBadSecCtrl
deriving DecidableEq, Repr

/-- The RESULT register's fields (10_state.md R32). -/
structure Result where
  /-- RES: 0 NONE, 1 OK, 2 ERROR. -/
  res : BitVec 2
  /-- KIND: the error kind's code, 0 when RES ≠ 2. -/
  kind : BitVec 3
  /-- SUB: the sub-cause, 0 when RES ≠ 2. -/
  sub : BitVec 8
deriving DecidableEq, Repr

/-- A numeric value: the raw number and its scale code (0 is ×1, 1 is ÷10, 2 is ÷100) (10_state.md R34). -/
structure Reading where
  val : Word
  scale : BitVec 2
deriving DecidableEq, Repr

/-- The six fields of a timestamp (44_record_decoder.md R306, 10_state.md R34). -/
structure Timestamp where
  year : BitVec 16
  month : Byte
  day : Byte
  hour : Byte
  minute : Byte
  second : Byte
deriving DecidableEq, Repr

/-- The MeasurementSet MS: a partial map from code-type to value (44_record_decoder.md R280). Numeric slots are indexed by
the code-type index 0 .. 12 of 30_encoding.md R126. -/
structure MeasurementSet where
  num : Vector (Option Reading) 13
  ts : Option Timestamp
  serial : Option Bytes
  name : Option Bytes
deriving DecidableEq, Repr

/-- The empty MeasurementSet, with which each decode starts. -/
def MeasurementSet.empty : MeasurementSet where
  num := Vector.replicate 13 none
  ts := none
  serial := none
  name := none

/-- The transient registers of the record decoder (44_record_decoder.md R280, 10_state.md R35). -/
structure Decoding where
  /-- PT: the plaintext; PLEN is its length. -/
  pt : Bytes
  /-- cur: the record cursor, an unbounded integer. -/
  cur : Nat
  /-- MS: the working MeasurementSet. -/
  ms : MeasurementSet
  /-- code[0..5]: the OBIS code, fields A to F. -/
  code : Vector Byte 6
  /-- dt: the data-type tag. -/
  dt : Byte
  /-- ct: the code-type, `none` for Unknown. -/
  ct : Option CodeType
  /-- v: the value start. -/
  v : Nat
  /-- dlen: the length of the value. -/
  dlen : Nat
deriving DecidableEq, Repr

/-- The record decoder's registers when no decode runs: they hold no value, and the model lets them be empty
(93_implementation_defined.md U3, "any value"; DESIGN CHOICE, log entry 2). -/
def Decoding.empty : Decoding where
  pt := []
  cur := 0
  ms := MeasurementSet.empty
  code := Vector.replicate 6 0#8
  dt := 0#8
  ct := none
  v := 0
  dlen := 0

/-- Where the record decoder stands in its loop (44_record_decoder.md R281) when it is run one step at a time; `idle` when
no decode runs. The model's own field: an event of the engine runs from `idle` to `idle` in one step (log entry 4). -/
inductive Phase where
  /-- No decode runs: the next step takes an event. -/
  | idle
  /-- At a record's first byte: rules R282 to R284 come next. -/
  | header
  /-- At a record's data-type tag: rules R285 to R287, then the tag's operation. -/
  | tag
  /-- After a value: rules R307 to R309 come next. -/
  | advance
deriving DecidableEq, Repr

/-- The output register group (10_state.md R34). -/
structure Outputs where
  /-- OUT_VALID: bit k set iff code-type k was present. -/
  valid : BitVec 16
  /-- OUT_VAL[0..12]. -/
  val : Vector Word 13
  /-- OUT_SCALE[0..12]. -/
  scale : Vector (BitVec 2) 13
  /-- OUT_TS_YEAR .. OUT_TS_SEC. -/
  ts : Timestamp
  /-- OUT_SERIAL_LEN. -/
  serialLen : Byte
  /-- OUT_SERIAL[0..254]. -/
  serial : Vector Byte 255
  /-- OUT_NAME_LEN. -/
  nameLen : Byte
  /-- OUT_NAME[0..254]. -/
  name : Vector Byte 255
deriving DecidableEq, Repr

/-- A timestamp of zeros. -/
def Timestamp.zero : Timestamp := ⟨0#16, 0#8, 0#8, 0#8, 0#8, 0#8⟩

/-- The output group after RESET: every element 0 (10_state.md R43). -/
def Outputs.zero : Outputs where
  valid := 0#16
  val := Vector.replicate 13 0#32
  scale := Vector.replicate 13 0#2
  ts := Timestamp.zero
  serialLen := 0#8
  serial := Vector.replicate 255 0#8
  nameLen := 0#8
  name := Vector.replicate 255 0#8

/-- The TelegramBuffer's memory TB: (address, byte) cells, addresses strictly rising. An address that is not listed holds no
value (10_state.md R25: "Entries at index ≥ COUNT hold no value"). -/
abbrev Memory := List Host.Cell

/-- The state of the engine (INVENTORY.md, "State"). -/
structure State where
  /-- The parameter set (00_scope.md R8), fixed for the life of the engine: no event changes it. -/
  par : LegalParams
  /-- TB (R25). -/
  tb : Memory
  /-- COUNT (R25). -/
  count : BitVec 32
  /-- NOW (R26). -/
  now : BitVec 32
  /-- LAST_ARRIVAL (R27). -/
  lastArrival : BitVec 32
  /-- TIMEOUT (R28). -/
  timeout : BitVec 24
  /-- AUTO (R29). -/
  auto : BitVec 1
  /-- KEY[0..15] (R30). -/
  key : Vector Byte 16
  /-- KEY_MASK (R30). -/
  keyMask : BitVec 16
  /-- IRQ_PEND: bit 0 DELIVER, bit 1 ERROR, bit 2 ILLEGAL (R31). -/
  irqPend : BitVec 3
  /-- IRQ_EN (R31). -/
  irqEn : BitVec 3
  /-- RESULT (R32). -/
  result : Result
  /-- DELIVER_COUNT (R33). -/
  deliverCount : BitVec 32
  /-- ERROR_COUNT (R33). -/
  errorCount : BitVec 32
  /-- The output registers (R34). -/
  out : Outputs
  /-- The output rd_data of the read port: the word the last READ returned (R22). The model's own field (log entry 3). -/
  rdData : Word
  /-- The events presented and not yet taken, oldest first (R20, R21). The model's own field (log entry 6). -/
  inbox : List Event
  /-- Where a decode run one step at a time stands. The model's own field (log entry 4). -/
  phase : Phase
  /-- The record decoder's transient registers (R35). -/
  dec : Decoding
deriving DecidableEq, Repr

/-- The machine right after RESET, over the parameter set `p` (10_state.md R43). KEY is set to zeros where the rule says it
holds no value (DESIGN CHOICE, log entry 1). -/
def State.initial (p : LegalParams) : State where
  par := p
  tb := []
  count := 0#32
  now := 0#32
  lastArrival := 0#32
  timeout := BitVec.ofNat 24 p.val.timeoutReset
  auto := 0#1
  key := Vector.replicate 16 0#8
  keyMask := 0#16
  irqPend := 0#3
  irqEn := 0#3
  result := ⟨0#2, 0#3, 0#8⟩
  deliverCount := 0#32
  errorCount := 0#32
  out := Outputs.zero
  rdData := 0#32
  inbox := []
  phase := .idle
  dec := Decoding.empty

/-- The machine right after RESET, over the default parameter set (00_scope.md R8, 10_state.md R43). -/
def State.reset : State := State.initial Config.defaultLegal

/-- Why a step can fault. Both reasons are accesses to an entry of TB that the spec says does not exist or holds no value; no
run from reset meets either, because COUNT never passes BUF_CAP and TB always holds an entry below COUNT. -/
inductive Fault where
  /-- Raised by FEED where COUNT is above BUF_CAP, so the entry it would write lies outside TB (10_state.md R25). Safe: the
  model stops where the spec gives no entry to write. -/
  | tbOutOfRange
  /-- Raised by a take (in CHECK and in an AUTO TICK) where an entry below COUNT holds no value (10_state.md R25). Safe: the
  model stops where the spec gives no byte to read. -/
  | tbNoValue
deriving DecidableEq, Repr

/-- Why a step can be refused. -/
inductive Refusal where
  /-- Raised by an arm of `exec` whose instruction has no meaning yet. No arm is left that raises it. Safe. -/
  | notModelled (mnemonic : String)
deriving DecidableEq, Repr

/-- The outcome of one step of this machine. -/
abbrev Outcome := Host.Outcome State Fault Refusal

end Sys2Proof.Machine
end

