-- ==== Sys2Proof/Machine/Operands.lean ====
section
/-! DEFINITION. Operand forms: the byte-string readers (00_scope.md R10 to R12, 20_memory.md R83 to R90), and the operands of the
record decoder's operations: code-type lookup, kinds, scale codes, values (30_encoding.md R117 to R127). -/

namespace Sys2Proof

/-- The index of a code-type in the output registers (30_encoding.md R126). -/
def CodeType.index : CodeType → Nat
  | .voltageL1 => 0
  | .voltageL2 => 1
  | .voltageL3 => 2
  | .currentL1 => 3
  | .currentL2 => 4
  | .currentL3 => 5
  | .activePowerPlus => 6
  | .activePowerMinus => 7
  | .activeEnergyPlus => 8
  | .activeEnergyMinus => 9
  | .reactiveEnergyPlus => 10
  | .reactiveEnergyMinus => 11
  | .powerFactor => 12
  | .timestamp => 13
  | .serialNumber => 14
  | .deviceName => 15

/-- The code-types in index order. -/
def CodeType.all : List CodeType :=
  [.voltageL1, .voltageL2, .voltageL3, .currentL1, .currentL2, .currentL3, .activePowerPlus, .activePowerMinus,
    .activeEnergyPlus, .activeEnergyMinus, .reactiveEnergyPlus, .reactiveEnergyMinus, .powerFactor, .timestamp,
    .serialNumber, .deviceName]

/-- A numeric code-type is one of index 0 .. 12 (44_record_decoder.md R288). -/
def CodeType.numeric (ct : CodeType) : Bool := decide (ct.index < 13)

end Sys2Proof

namespace Sys2Proof.Machine

/-- The sub-string `s[i .. j)`, empty when j ≤ i (R10). -/
def slice (s : Bytes) (i j : Nat) : Bytes := (s.take j).drop i

/-- The bounds-checked read of one byte: index `i ≥ |s|` raises the abort its caller names (R12, R90). -/
def readByte (s : Bytes) (i : Nat) (outOfRange : Cause) : Except Cause Byte :=
  match s[i]? with
  | some b => .ok b
  | none => .error outOfRange

/-- A check: raise the abort when the condition holds. -/
def abortIf (bad : Bool) (c : Cause) : Except Cause Unit := if bad then .error c else .ok ()

/-- BE16 of two bytes (R11). -/
def be16 (b0 b1 : Byte) : BitVec 16 := b0 ++ b1

/-- BE32 of four bytes (R11). -/
def be32 (b0 b1 b2 b3 : Byte) : BitVec 32 := b0 ++ b1 ++ b2 ++ b3

/-- The big-endian bytes of a number, `n` of them, most significant first. -/
def toBytesBE : Nat → Nat → Bytes
  | 0, _ => []
  | n + 1, v => BitVec.ofNat 8 (v / 256 ^ n) :: toBytesBE n v

/-- The medium that field A selects, or the BAD_MEDIUM abort (44_record_decoder.md R286). -/
def mediumOf (p : Params) (a : Byte) : Except Cause Medium :=
  if a = p.medElec then .ok .electricity
  else if a = p.medAbstract then .ok .abstract
  else .error .obisBadMedium

/-- The table lookup, exact on both bytes; `none` is Unknown (30_encoding.md R125, R127, 44_record_decoder.md R287). -/
def lookupCodeType (table : List ObisRow) (m : Medium) (c d : Byte) : Option CodeType :=
  (table.find? fun r => decide (r.medium = m) && decide (r.c = c) && decide (r.d = d)).map fun r => r.codeType

/-- The classification of an OBIS code by its fields A, C and D (R286, R287). -/
def classify (p : Params) (code : Vector Byte 6) : Except Cause (Option CodeType) :=
  match mediumOf p code[0] with
  | .ok m => .ok (lookupCodeType p.obisTable m code[2] code[3])
  | .error c => .error c

/-- The scale code of a U16 value that starts at `v`: a peek that never raises (44_record_decoder.md R303). -/
def scaleCode (p : Params) (pt : Bytes) (v : Nat) : BitVec 2 :=
  match pt[v + p.scalerOff]? with
  | none => 0#2
  | some b => if b = p.scale10 then 1#2 else if b = p.scale100 then 2#2 else 0#2

/-- The timestamp in the first 8 bytes of an octet string, `none` when there are fewer (R306, 30_encoding.md R121). Byte 4
and the bytes from 8 on are ignored. -/
def timestampOf : Bytes → Option Timestamp
  | y0 :: y1 :: mo :: da :: _ :: ho :: mi :: se :: _ => some ⟨be16 y0 y1, mo, da, ho, mi, se⟩
  | _ => none

/-- Store a numeric value under a numeric code-type; any other code-type, and Unknown, discards it (R288, R289). -/
def MeasurementSet.storeNum (ms : MeasurementSet) (ct : Option CodeType) (r : Reading) : MeasurementSet :=
  match ct with
  | none => ms
  | some k => if h : k.index < 13 then { ms with num := ms.num.set (k.index) (some r) h } else ms

/-- Whether a code-type is in the domain of the set. -/
def MeasurementSet.has (ms : MeasurementSet) (ct : CodeType) : Bool :=
  match ct with
  | .timestamp => ms.ts.isSome
  | .serialNumber => ms.serial.isSome
  | .deviceName => ms.name.isSome
  | k => (ms.num[k.index]?.getD none).isSome

end Sys2Proof.Machine
end

