-- ==== Sys2Proof/Machine/Ops.lean ====
section
/-! DEFINITION. The shared operations on State: the TelegramBuffer's memory, the abort (the engine's one exception entry), the
delivery, the illegal-command report, the interrupt bits and the RESET event. -/

namespace Sys2Proof.Machine

/-! ## Memory (20_memory.md R80 to R82) -/

/-- The byte at an address; `none` where the entry holds no value. -/
def Memory.read : Memory → Nat → Option Byte
  | [], _ => none
  | (a, b) :: m, i => if a = i then some b else Memory.read m i

/-- Write one byte, keeping the addresses strictly rising. -/
def Memory.write : Memory → Nat → Byte → Memory
  | [], i, b => [(i, b)]
  | (a, x) :: m, i, b =>
    if i < a then (i, b) :: (a, x) :: m
    else if i = a then (i, b) :: m
    else (a, x) :: Memory.write m i b

/-- The bytes at `a, a + 1, … , a + n - 1`; `none` when one of them holds no value. -/
def Memory.readRange (m : Memory) : Nat → Nat → Option Bytes
  | _, 0 => some []
  | a, n + 1 =>
    match Memory.read m a with
    | none => none
    | some b =>
      match Memory.readRange m (a + 1) n with
      | none => none
      | some bs => some (b :: bs)

/-- The canonical form: addresses strictly rising. No listed entry can equal what an unlisted address reads as, since an
unlisted address holds no value. -/
def Memory.wf : Memory → Bool
  | [] => true
  | [_] => true
  | (a, _) :: (b, y) :: m => decide (a < b) && Memory.wf ((b, y) :: m)

/-! ## Single-register writes -/

/-- COUNT ← 0: the buffer is empty, and no entry of TB holds a value any more (10_state.md R25, 20_memory.md R82). -/
def State.discardBuffer (s : State) : State := { s with tb := [], count := 0#32 }

/-- Append one byte at index COUNT and advance COUNT (40_accumulator.md R151). -/
def State.appendByte (s : State) (b : Byte) : State :=
  { s with tb := Memory.write s.tb s.count.toNat b, count := s.count + 1#32 }

/-- LAST_ARRIVAL ← NOW (10_state.md R27). -/
def State.markArrival (s : State) : State := { s with lastArrival := s.now }

/-- NOW ← (NOW + 1) mod 2^32 (10_state.md R26). -/
def State.advanceNow (s : State) : State := { s with now := s.now + 1#32 }

/-- KEY[i] ← b, and bit i of KEY_MASK is set (10_state.md R30). -/
def State.writeKey (s : State) (i : BitVec 4) (b : Byte) : State :=
  { s with key := s.key.set i.toNat b i.isLt, keyMask := s.keyMask ||| (1#16 <<< i.toNat) }

/-- TIMEOUT ← t (10_state.md R28). -/
def State.setTimeout (s : State) (t : BitVec 24) : State := { s with timeout := t }

/-- AUTO ← a (10_state.md R29). -/
def State.setAuto (s : State) (a : BitVec 1) : State := { s with auto := a }

/-- IRQ_EN ← m (10_state.md R31). -/
def State.setIrqEn (s : State) (m : BitVec 3) : State := { s with irqEn := m }

/-- IRQ_PEND ← IRQ_PEND | m (10_state.md R31). -/
def State.raiseIrq (s : State) (m : BitVec 3) : State := { s with irqPend := s.irqPend ||| m }

/-- IRQ_PEND ← IRQ_PEND & ~m (45_host_and_sink.md R356). -/
def State.clearIrq (s : State) (m : BitVec 3) : State := { s with irqPend := s.irqPend &&& ~~~m }

/-- The read port's output rd_data holds a word (10_state.md R22). -/
def State.setRdData (s : State) (w : Word) : State := { s with rdData := w }

/-- The events still to be taken. -/
def State.setInbox (s : State) (es : List Event) : State := { s with inbox := es }

/-- The record decoder's registers, and where it stands. -/
def State.setDecoding (s : State) (ph : Phase) (d : Decoding) : State := { s with phase := ph, dec := d }

/-- Every transient value is discarded: no decode runs (10_state.md R35). -/
def State.endDecode (s : State) : State := s.setDecoding .idle Decoding.empty

/-! ## Interrupt bits (60_exceptions.md R394) -/

/-- The DELIVER bit. -/
def irqDeliver : BitVec 3 := 0b001#3
/-- The ERROR bit. -/
def irqError : BitVec 3 := 0b010#3
/-- The ILLEGAL bit. -/
def irqIllegal : BitVec 3 := 0b100#3

/-- An illegal command word: IRQ_PEND.ILLEGAL is set and nothing else changes (30_encoding.md R106, 60_exceptions.md R393). -/
def State.illegalCommand (s : State) : State := s.raiseIrq irqIllegal

/-! ## The abort (60_exceptions.md R380 to R386) -/

/-- The code of a cause's error kind, the value of RESULT.KIND (R380). -/
def Cause.kindCode : Cause → BitVec 3
  | .framingBufferOverflow | .framingTruncated | .framingBadStart | .framingLenMismatch | .framingBadStop
  | .framingHeaderShort => 1#3
  | .lengthUnderflow | .lengthMismatch | .lengthTagShort => 2#3
  | .cryptoNoKey | .cryptoTagMismatch => 3#3
  | .structuralShort | .structuralBadMarker => 4#3
  | .obisBadHeaderType | .obisBadHeaderLen | .obisBadMedium | .obisBadDataType | .obisTruncated | .obisTsShort => 5#3
  | .envelopeTooShort | .envelopeBadCipher | .envelopeBadSystLen | .envelopeBadSecCtrl => 6#3

/-- The sub-cause, the value of RESULT.SUB (R381, R382, R383). -/
def Cause.subCode : Cause → BitVec 8
  | .framingBufferOverflow => 1#8
  | .framingTruncated => 2#8
  | .framingBadStart => 3#8
  | .framingLenMismatch => 4#8
  | .framingBadStop => 5#8
  | .framingHeaderShort => 6#8
  | .lengthUnderflow => 1#8
  | .lengthMismatch => 2#8
  | .lengthTagShort => 3#8
  | .cryptoNoKey => 1#8
  | .cryptoTagMismatch => 2#8
  | .structuralShort => 1#8
  | .structuralBadMarker => 2#8
  | .obisBadHeaderType => 1#8
  | .obisBadHeaderLen => 2#8
  | .obisBadMedium => 3#8
  | .obisBadDataType => 4#8
  | .obisTruncated => 5#8
  | .obisTsShort => 6#8
  | .envelopeTooShort => 1#8
  | .envelopeBadCipher => 2#8
  | .envelopeBadSystLen => 3#8
  | .envelopeBadSecCtrl => 4#8

/-- RESULT after an abort: RES = 2, the kind's code and the sub-cause (R384). -/
def Cause.result (c : Cause) : Result := ⟨2#2, Cause.kindCode c, Cause.subCode c⟩

/-- RESULT after a delivery: RES = 1, KIND = 0, SUB = 0 (45_host_and_sink.md R340). -/
def Result.ok : Result := ⟨1#2, 0#3, 0#8⟩

/-- TAKING THE ENGINE'S EXCEPTION: the abort of R384. It empties the buffer, reports the cause, counts the error, sets
IRQ_PEND.ERROR, discards every transient value, and leaves the engine idle and accumulating. Nothing else changes (R385).
There is no return from it: the engine is idle at once (R391). -/
def State.abort (s : State) (c : Cause) : State :=
  { s with
    tb := []
    count := 0#32
    result := Cause.result c
    errorCount := s.errorCount + 1#32
    irqPend := s.irqPend ||| irqError
    phase := .idle
    dec := Decoding.empty }

/-! ## The delivery (45_host_and_sink.md R340, R341) -/

/-- OUT_VALID of a set: bit index(ct) is 1 for each ct in its domain, that is, the sum of 2^index(ct) over its domain
(R341). -/
def MeasurementSet.validBits (ms : MeasurementSet) : BitVec 16 :=
  (BitVec.ofBoolListLE (CodeType.all.map ms.has)).setWidth 16

/-- A text in the 255 bytes of its output array, zeros after its length (R341). -/
def padText (t : Bytes) : Vector Byte 255 :=
  ⟨((t ++ List.replicate 255 0#8).take 255).toArray, by
    simp only [List.size_toArray, List.length_take, List.length_append, List.length_replicate]; omega⟩

/-- The slot values of a vector of optional readings, 0 where absent (R341). -/
def slotVals (v : Vector (Option Reading) 13) : Vector Word 13 :=
  ⟨(v.toList.map fun r => match r with | some x => x.val | none => 0#32).toArray, by simp⟩

/-- The slot scale codes of a vector of optional readings, 0 where absent (R341). -/
def slotScales (v : Vector (Option Reading) 13) : Vector (BitVec 2) 13 :=
  ⟨(v.toList.map fun r => match r with | some x => x.scale | none => 0#2).toArray, by simp⟩

/-- `write_outputs(MS)`: the whole output group, every element replaced (R341). -/
def writeOutputs (ms : MeasurementSet) : Outputs where
  valid := ms.validBits
  val := slotVals ms.num
  scale := slotScales ms.num
  ts := ms.ts.getD Timestamp.zero
  serialLen := BitVec.ofNat 8 (ms.serial.getD []).length
  serial := padText (ms.serial.getD [])
  nameLen := BitVec.ofNat 8 (ms.name.getD []).length
  name := padText (ms.name.getD [])

/-- `deliver(MS)` (R340), with the transient values discarded at the end of the decode (10_state.md R35). -/
def State.deliver (s : State) (ms : MeasurementSet) : State :=
  { s with
    out := writeOutputs ms
    result := Result.ok
    deliverCount := s.deliverCount + 1#32
    irqPend := s.irqPend ||| irqDeliver
    phase := .idle
    dec := Decoding.empty }

/-! ## RESET (70_reset_and_hazards.md R420, 10_state.md R43) -/

/-- The RESET event: every persistent element takes its reset value; the parameters stay, and so do the events that come
after it and the value last driven on rd_data (log entry 3). -/
def State.resetEvent (s : State) : State :=
  { State.initial s.par with inbox := s.inbox, rdData := s.rdData }

end Sys2Proof.Machine
end

