-- ==== Sys2Proof/Machine/Aes.lean ====
section
/-! DEFINITION. The AES-128 forward cipher (43_aes_gcm.md R241 to R250). A block, a word of the key schedule and a round key are
byte strings; the cipher's state `s[r][c]` is the byte at index r + 4c (R241). -/

namespace Sys2Proof.Machine

/-- The byte at an index of a block; blocks are always long enough where this is used. -/
def byteAt (s : Bytes) (i : Nat) : Byte := s.getD i 0#8

/-- Multiplication by x in GF(2^8) with the polynomial 0x11B (R242). -/
def xtime (a : Byte) : Byte := (a <<< 1) ^^^ (if a.msb then 0x1B#8 else 0#8)

/-- The sum over the bits i of `b`, from bit `i` up and `n` of them, of x^i times `a` (R242). -/
def gmulBits (b : Byte) : Nat → Nat → Byte → Byte
  | 0, _, _ => 0#8
  | n + 1, i, a => (if b.getLsbD i then a else 0#8) ^^^ gmulBits b n (i + 1) (xtime a)

/-- The product of two bytes in GF(2^8) (R242). -/
def gmul (a b : Byte) : Byte := gmulBits b 8 0 a

/-- The inverse in GF(2^8), with inv(0) = 0 (R242). -/
def ginv (a : Byte) : Byte :=
  ((List.range 256).map (BitVec.ofNat 8)).find? (fun b => decide (gmul a b = 1#8)) |>.getD 0#8

/-- The S-box by its formula (R243). -/
def sboxFormula (x : Byte) : Byte :=
  let b := ginv x
  b ^^^ b.rotateLeft 1 ^^^ b.rotateLeft 2 ^^^ b.rotateLeft 3 ^^^ b.rotateLeft 4 ^^^ 0x63#8

/-- The S-box table of R243, one row per high nibble. -/
def sboxRows : List (List Nat) :=
  [ [0x63, 0x7c, 0x77, 0x7b, 0xf2, 0x6b, 0x6f, 0xc5, 0x30, 0x01, 0x67, 0x2b, 0xfe, 0xd7, 0xab, 0x76],
    [0xca, 0x82, 0xc9, 0x7d, 0xfa, 0x59, 0x47, 0xf0, 0xad, 0xd4, 0xa2, 0xaf, 0x9c, 0xa4, 0x72, 0xc0],
    [0xb7, 0xfd, 0x93, 0x26, 0x36, 0x3f, 0xf7, 0xcc, 0x34, 0xa5, 0xe5, 0xf1, 0x71, 0xd8, 0x31, 0x15],
    [0x04, 0xc7, 0x23, 0xc3, 0x18, 0x96, 0x05, 0x9a, 0x07, 0x12, 0x80, 0xe2, 0xeb, 0x27, 0xb2, 0x75],
    [0x09, 0x83, 0x2c, 0x1a, 0x1b, 0x6e, 0x5a, 0xa0, 0x52, 0x3b, 0xd6, 0xb3, 0x29, 0xe3, 0x2f, 0x84],
    [0x53, 0xd1, 0x00, 0xed, 0x20, 0xfc, 0xb1, 0x5b, 0x6a, 0xcb, 0xbe, 0x39, 0x4a, 0x4c, 0x58, 0xcf],
    [0xd0, 0xef, 0xaa, 0xfb, 0x43, 0x4d, 0x33, 0x85, 0x45, 0xf9, 0x02, 0x7f, 0x50, 0x3c, 0x9f, 0xa8],
    [0x51, 0xa3, 0x40, 0x8f, 0x92, 0x9d, 0x38, 0xf5, 0xbc, 0xb6, 0xda, 0x21, 0x10, 0xff, 0xf3, 0xd2],
    [0xcd, 0x0c, 0x13, 0xec, 0x5f, 0x97, 0x44, 0x17, 0xc4, 0xa7, 0x7e, 0x3d, 0x64, 0x5d, 0x19, 0x73],
    [0x60, 0x81, 0x4f, 0xdc, 0x22, 0x2a, 0x90, 0x88, 0x46, 0xee, 0xb8, 0x14, 0xde, 0x5e, 0x0b, 0xdb],
    [0xe0, 0x32, 0x3a, 0x0a, 0x49, 0x06, 0x24, 0x5c, 0xc2, 0xd3, 0xac, 0x62, 0x91, 0x95, 0xe4, 0x79],
    [0xe7, 0xc8, 0x37, 0x6d, 0x8d, 0xd5, 0x4e, 0xa9, 0x6c, 0x56, 0xf4, 0xea, 0x65, 0x7a, 0xae, 0x08],
    [0xba, 0x78, 0x25, 0x2e, 0x1c, 0xa6, 0xb4, 0xc6, 0xe8, 0xdd, 0x74, 0x1f, 0x4b, 0xbd, 0x8b, 0x8a],
    [0x70, 0x3e, 0xb5, 0x66, 0x48, 0x03, 0xf6, 0x0e, 0x61, 0x35, 0x57, 0xb9, 0x86, 0xc1, 0x1d, 0x9e],
    [0xe1, 0xf8, 0x98, 0x11, 0x69, 0xd9, 0x8e, 0x94, 0x9b, 0x1e, 0x87, 0xe9, 0xce, 0x55, 0x28, 0xdf],
    [0x8c, 0xa1, 0x89, 0x0d, 0xbf, 0xe6, 0x42, 0x68, 0x41, 0x99, 0x2d, 0x0f, 0xb0, 0x54, 0xbb, 0x16] ]

/-- SBOX(x): the table, by high nibble (row) and low nibble (column) (R243). -/
def sbox (x : Byte) : Byte := BitVec.ofNat 8 ((sboxRows.getD (x.toNat / 16) []).getD (x.toNat % 16) 0)

/-- XOR of two byte strings, as long as the shorter. -/
def xorBytes (a b : Bytes) : Bytes := List.zipWith (fun x y => x ^^^ y) a b

/-- RC[j] (R244): RC[1] = 1 and each next one is xtime of the one before. -/
def rc : Nat → Byte
  | 0 => 0#8
  | 1 => 1#8
  | j + 2 => xtime (rc (j + 1))

/-- Rcon[j] (R244). -/
def rcon (j : Nat) : Bytes := [rc j, 0#8, 0#8, 0#8]

/-- RotWord (R245). -/
def rotWord : Bytes → Bytes
  | a :: w => w ++ [a]
  | [] => []

/-- SubWord (R245). -/
def subWord (w : Bytes) : Bytes := w.map sbox

/-- w[i] from the words before it (R245). -/
def nextWord (ws : List Bytes) (i : Nat) : Bytes :=
  let t := ws.getD (i - 1) []
  let t' := if i % 4 = 0 then xorBytes (subWord (rotWord t)) (rcon (i / 4)) else t
  xorBytes (ws.getD (i - 4) []) t'

/-- The first 4 + n words of the key schedule of a 16-byte key (R241, R245). -/
def keyWords (k : Bytes) : Nat → List Bytes
  | 0 => [slice k 0 4, slice k 4 8, slice k 8 12, slice k 12 16]
  | n + 1 =>
    let ws := keyWords k n
    ws ++ [nextWord ws (n + 4)]

/-- The 44 words of the key schedule (R245). -/
def keySchedule (k : Bytes) : List Bytes := keyWords k 40

/-- Round key `rk`: words w[4rk .. 4rk+3] (R245). -/
def roundKey (ws : List Bytes) (rk : Nat) : Bytes := ((ws.drop (4 * rk)).take 4).flatten

/-- SubBytes (R246). -/
def subBytes (s : Bytes) : Bytes := s.map sbox

/-- ShiftRows: s'[r][c] = s[r][(c + r) mod 4] (R247). -/
def shiftRows (s : Bytes) : Bytes :=
  (List.range 16).map fun i => byteAt s (i % 4 + 4 * ((i / 4 + i % 4) % 4))

/-- One column of MixColumns (R248). -/
def mixColumn (s0 s1 s2 s3 : Byte) : Bytes :=
  [ gmul 2#8 s0 ^^^ gmul 3#8 s1 ^^^ s2 ^^^ s3,
    s0 ^^^ gmul 2#8 s1 ^^^ gmul 3#8 s2 ^^^ s3,
    s0 ^^^ s1 ^^^ gmul 2#8 s2 ^^^ gmul 3#8 s3,
    gmul 3#8 s0 ^^^ s1 ^^^ s2 ^^^ gmul 2#8 s3 ]

/-- MixColumns (R248). -/
def mixColumns (s : Bytes) : Bytes :=
  (List.range 4).flatMap fun c =>
    mixColumn (byteAt s (4 * c)) (byteAt s (4 * c + 1)) (byteAt s (4 * c + 2)) (byteAt s (4 * c + 3))

/-- AddRoundKey(rk) (R249). -/
def addRoundKey (ws : List Bytes) (rk : Nat) (s : Bytes) : Bytes := xorBytes s (roundKey ws rk)

/-- Rounds `rk .. rk + n - 1` of the nine full rounds (R250). -/
def fullRounds (ws : List Bytes) : Nat → Nat → Bytes → Bytes
  | 0, _, s => s
  | n + 1, rk, s => fullRounds ws n (rk + 1) (addRoundKey ws rk (mixColumns (shiftRows (subBytes s))))

/-- The forward cipher over an expanded key (R250). -/
def aesWith (ws : List Bytes) (inp : Bytes) : Bytes :=
  addRoundKey ws 10 (shiftRows (subBytes (fullRounds ws 9 1 (addRoundKey ws 0 inp))))

/-- AES_K(in) (R250). -/
def aes (k inp : Bytes) : Bytes := aesWith (keySchedule k) inp

end Sys2Proof.Machine
end

