-- ==== Sys2Proof/Machine/Gcm.lean ====
section
/-! DEFINITION. GCM authenticated decryption with a 12-byte IV and empty associated data (43_aes_gcm.md R252 to R257). -/

namespace Sys2Proof.Machine

/-- BE128: a byte string as a 128-bit integer, its first byte most significant (20_memory.md R85). -/
def be128 (s : Bytes) : BitVec 128 := BitVec.ofNat 128 (s.foldl (fun n b => n * 256 + b.toNat) 0)

/-- BE128^-1: the 16 bytes of a 128-bit integer. -/
def block128 (x : BitVec 128) : Bytes := toBytesBE 16 x.toNat

/-- The constant R = 11100001 ‖ 0^120 (R252). -/
def gcmR : BitVec 128 := 0xE1#128 <<< 120

/-- The loop of R252 from block bit `128 - n` on: `Z` and `V` as the rule names them. -/
def gf128Loop (x : BitVec 128) : Nat → BitVec 128 → BitVec 128 → BitVec 128
  | 0, z, _ => z
  | n + 1, z, v =>
    gf128Loop x n (if x.getLsbD n then z ^^^ v else z) (if v.getLsbD 0 then (v >>> 1) ^^^ gcmR else v >>> 1)

/-- Multiplication in GF(2^128) (R252). -/
def gf128Mul (x y : BitVec 128) : BitVec 128 := gf128Loop x 128 0#128 y

/-- A byte string cut into `n` pieces of 16 bytes, the last one shorter or empty where the string ends. -/
def blocks : Nat → Bytes → List Bytes
  | 0, _ => []
  | n + 1, s => s.take 16 :: blocks n (s.drop 16)

/-- ceil(n / 16). -/
def ceil16 (n : Nat) : Nat := (n + 15) / 16

/-- GHASH_H(X) (R253). -/
def ghash (h : BitVec 128) (x : Bytes) : BitVec 128 :=
  (blocks (ceil16 x.length) x).foldl (fun y b => gf128Mul (y ^^^ be128 b) h) 0#128

/-- inc32(CB): the first 12 bytes kept, the last 4 one more modulo 2^32 (R254). -/
def inc32 (cb : Bytes) : Bytes :=
  cb.take 12 ++ toBytesBE 4 (((be128 (cb.drop 12)).toNat + 1) % 2 ^ 32)

/-- The loop of GCTR over the pieces of X, with an expanded key (R255). -/
def gctrLoop (ws : List Bytes) : List Bytes → Bytes → Bytes
  | [], _ => []
  | b :: bs, cb => xorBytes b (aesWith ws cb) ++ gctrLoop ws bs (inc32 cb)

/-- GCTR_K(ICB, X), with K's schedule expanded (R255). -/
def gctr (ws : List Bytes) (icb x : Bytes) : Bytes := gctrLoop ws (blocks (ceil16 x.length) x) icb

/-- H = AES_K(0^128) (R256). -/
def hashSubkey (ws : List Bytes) : BitVec 128 := be128 (aesWith ws (List.replicate 16 0#8))

/-- J0 = IV ‖ 00 00 00 01 (R256). -/
def preCounter (iv : Bytes) : Bytes := iv ++ [0#8, 0#8, 0#8, 1#8]

/-- The string that GHASH takes: C padded with zeros to whole blocks, BE64(0), BE64(8·clen) (R257). -/
def ghashInput (c : Bytes) : Bytes :=
  c ++ List.replicate (16 * ceil16 c.length - c.length) 0#8 ++ toBytesBE 8 0 ++ toBytesBE 8 (8 * c.length)

/-- T': the first `tagLen` bytes of the full tag of C under K and IV (R257). -/
def gcmTag (ws : List Bytes) (iv c : Bytes) (tagLen : Nat) : Bytes :=
  (gctr ws (preCounter iv) (block128 (ghash (hashSubkey ws) (ghashInput c)))).take tagLen

/-- GCM_AD(K, IV, C, T): the plaintext, or `none` for FAIL (R257). -/
def gcmAD (k iv c t : Bytes) (tagLen : Nat) : Option Bytes :=
  let ws := keySchedule k
  if gcmTag ws iv c tagLen = t then some (gctr ws (inc32 (preCounter iv)) c) else none

end Sys2Proof.Machine
end

