-- ==== Sys2Proof/Machine/Envelope.lean ====
section
/-! DEFINITION. The DLMS envelope parser, the decryption and the structural check (42_envelope.md): a pure function of PB, the key
and the parameters. -/

namespace Sys2Proof.Machine

/-- What the header checks find: the header shift `h` and the ciphertext length `clen`. -/
structure HeaderInfo where
  h : Nat
  clen : Nat
deriving DecidableEq, Repr

/-- The declared length `m` and the header shift `h` (R214). -/
def messageLength (p : Params) (pb : Bytes) : Except Cause (Nat × Nat) := do
  let m0 ← readByte pb 10 .envelopeTooShort
  if m0 = p.dlmsLenExt then
    let b0 ← readByte pb 11 .envelopeTooShort
    let b1 ← readByte pb 12 .envelopeTooShort
    return ((be16 b0 b1).toNat, p.dlmsHdrExt)
  else
    return (m0.toNat, 0)

/-- The header and length checks, in rule order (R211 to R218). The reads are all in range (R225); were one not, it would be
answered as TOO_SHORT. -/
def parseHeader (p : Params) (pb : Bytes) : Except Cause HeaderInfo := do
  abortIf (pb.length < p.dlmsMin) .envelopeTooShort
  let cipherId ← readByte pb 0 .envelopeTooShort
  abortIf (cipherId ≠ p.dlmsCipherId) .envelopeBadCipher
  let systLen ← readByte pb 1 .envelopeTooShort
  abortIf (systLen.toNat ≠ p.dlmsSystLen) .envelopeBadSystLen
  let (m, h) ← messageLength p pb
  abortIf (m < p.dlmsLenCorr) .lengthUnderflow
  let corr := m - p.dlmsLenCorr
  abortIf ((pb.length : Int) - p.dlmsHdr - h ≠ corr) .lengthMismatch
  abortIf (corr < p.tagLen) .lengthTagShort
  let secCtrl ← readByte pb (11 + h) .envelopeTooShort
  abortIf (secCtrl ≠ p.dlmsSecCtrl) .envelopeBadSecCtrl
  return ⟨h, corr - p.tagLen⟩

/-- The ciphertext C (R219). -/
def ciphertext (p : Params) (pb : Bytes) (hi : HeaderInfo) : Bytes :=
  slice pb (p.dlmsHdr + hi.h) (p.dlmsHdr + hi.h + hi.clen)

/-- The tag T: the bytes after C (R219). -/
def authTag (p : Params) (pb : Bytes) (hi : HeaderInfo) : Bytes :=
  slice pb (p.dlmsHdr + hi.h + hi.clen) (p.dlmsHdr + hi.h + hi.clen + p.tagLen)

/-- The nonce IV: the DLMS_SYST_LEN bytes of the system title, then the frame-counter bytes in wire order, which fill it up to
NONCE_LEN bytes (R220). -/
def nonce (p : Params) (pb : Bytes) (hi : HeaderInfo) : Bytes :=
  slice pb 2 (2 + p.dlmsSystLen) ++ slice pb (12 + hi.h) (12 + hi.h + (p.nonceLen - p.dlmsSystLen))

/-- The key check and the authenticated decryption (R221, R222). -/
def decrypt (p : Params) (key : Bytes) (keyLoaded : Bool) (pb : Bytes) (hi : HeaderInfo) : Except Cause Bytes := do
  abortIf (!keyLoaded) .cryptoNoKey
  match gcmAD key (nonce p pb hi) (ciphertext p pb hi) (authTag p pb hi) p.tagLen with
  | none => .error .cryptoTagMismatch
  | some pt => .ok pt

/-- The structural check of the plaintext (R226, R227). -/
def checkStructure (p : Params) (pt : Bytes) : Except Cause Unit := do
  abortIf (pt.length < 6) .structuralShort
  let mark0 ← readByte pt 0 .structuralShort
  let mark5 ← readByte pt 5 .structuralShort
  abortIf (mark0 ≠ p.ptMark0 || mark5 ≠ p.ptMark5) .structuralBadMarker

/-- `open_envelope(PB)`: the plaintext PT, or the abort's cause (R210). -/
def openEnvelope (p : Params) (key : Bytes) (keyLoaded : Bool) (pb : Bytes) : Except Cause Bytes := do
  let hi ← parseHeader p pb
  let pt ← decrypt p key keyLoaded pb hi
  checkStructure p pt
  return pt

end Sys2Proof.Machine
end

