-- ==== Sys2Proof/Machine/Flags.lean ====
section
/-! DEFINITION. The status flags, each computed from the state when it is read (10_state.md R37), the completion predicate
(40_accumulator.md R155, R156) and the irq output (60_exceptions.md R395). -/

namespace Sys2Proof.Machine

/-- NONEMPTY = (COUNT ≠ 0) (R37). -/
def State.nonempty (s : State) : Bool := decide (s.count ≠ 0#32)

/-- KEY_LOADED = (KEY_MASK = 0xFFFF) (10_state.md R30). -/
def State.keyLoaded (s : State) : Bool := decide (s.keyMask = 0xFFFF#16)

/-- The level of the irq output: some source is pending and enabled (R395). -/
def State.irq (s : State) : Bool := decide (s.irqPend &&& s.irqEn ≠ 0#3)

/-- elapsed = (NOW - LAST_ARRIVAL) mod 2^32 (40_accumulator.md R155). -/
def State.elapsed (s : State) : BitVec 32 := s.now - s.lastArrival

/-- complete = (COUNT ≠ 0) and (elapsed > TIMEOUT), strict and unsigned (40_accumulator.md R156). -/
def State.complete (s : State) : Bool := s.nonempty && decide (s.timeout.toNat < s.elapsed.toNat)

/-- The STATUS word: [0] NONEMPTY, [1] KEY_LOADED, [2] AUTO, [3] IRQ (10_state.md R39). -/
def State.statusWord (s : State) : Word :=
  0#28 ++ BitVec.ofBool s.irq ++ s.auto ++ BitVec.ofBool s.keyLoaded ++ BitVec.ofBool s.nonempty

/-- The RESULT word: [1:0] RES, [10:8] KIND, [23:16] SUB (10_state.md R39). -/
def Result.word (r : Result) : Word := 0#8 ++ r.sub ++ 0#5 ++ r.kind ++ 0#6 ++ r.res

end Sys2Proof.Machine
end

