-- ==== Sys2Proof/Machine/Reassembler.lean ====
section
/-! DEFINITION. The M-Bus frame parser and reassembler (41_reassembler.md): a pure function of RAW and the parameters. -/

namespace Sys2Proof.Machine

/-- The checks of the frame at offset `off`, in rule order (R183 to R189); the frame's length byte L when all pass (R186). -/
def frameLength (p : Params) (raw : Bytes) (off : Nat) : Except Cause Nat := do
  let rem := raw.length - off
  abortIf (rem < p.mbusIntro) .framingTruncated
  let start0 ← readByte raw off .framingTruncated
  let start1 ← readByte raw (off + 3) .framingTruncated
  abortIf (start0 ≠ p.mbusStart || start1 ≠ p.mbusStart) .framingBadStart
  let len0 ← readByte raw (off + 1) .framingTruncated
  let len1 ← readByte raw (off + 2) .framingTruncated
  abortIf (len0 ≠ len1) .framingLenMismatch
  let l := len0.toNat
  abortIf (rem < p.mbusIntro + l + p.mbusFooter) .framingTruncated
  let stop ← readByte raw (off + p.mbusIntro + l + p.mbusFooter - 1) .framingTruncated
  abortIf (stop ≠ p.mbusStop) .framingBadStop
  abortIf (l < p.mbusFullHdr - p.mbusIntro) .framingHeaderShort
  return l

/-- The payload span of a frame whose length byte is `l` (R190). -/
def payloadSpan (p : Params) (raw : Bytes) (off l : Nat) : Bytes :=
  slice raw (off + p.mbusFullHdr) (off + p.mbusIntro + l)

/-- The offset of the first byte past a frame whose length byte is `l` (R191). -/
def frameEnd (p : Params) (off l : Nat) : Nat := off + p.mbusIntro + l + p.mbusFooter

/-- The frame loop from offset `off` with the payload `pb` collected so far (R182). Every pass moves `off` on and stays
inside RAW, so a count of passes of |RAW| + 1 is never used up; running out is answered as TRUNCATED. -/
def reassembleFrom (p : Params) (raw : Bytes) : Nat → Nat → Bytes → Except Cause Bytes
  | 0, _, _ => .error .framingTruncated
  | passes + 1, off, pb => do
    let l ← frameLength p raw off
    if raw.length ≤ frameEnd p off l then
      return pb ++ payloadSpan p raw off l
    else
      reassembleFrom p raw passes (frameEnd p off l) (pb ++ payloadSpan p raw off l)

/-- `reassemble(RAW)`: the Telegram Payload PB, or the abort's cause (R180, R182). -/
def reassemble (p : Params) (raw : Bytes) : Except Cause Bytes := reassembleFrom p raw (raw.length + 1) 0 []

end Sys2Proof.Machine
end

