-- ==== Sys2Proof/Machine/Records.lean ====
section
/-! DEFINITION. The OBIS record decoder (44_record_decoder.md): the steps of one record over the decoder's registers, the three
data-type operations, and the loop. The data-type tags U32, U16 and OCTET are the decoder's instructions; their meanings are
here. -/

namespace Sys2Proof.Machine

/-- `rd(i)`: the bounds-checked read of the plaintext (R310). -/
def Decoding.rd (d : Decoding) (i : Nat) : Except Cause Byte := readByte d.pt i .obisTruncated

/-- The registers at the start of a decode: cur = DEC_START and MS empty (R280, R281). -/
def startDecoding (p : Params) (pt : Bytes) : Decoding := { Decoding.empty with pt := pt, cur := p.decStart }

/-- The header type tag, the code length and the OBIS code (R282, R283, R284). -/
def recordHeader (p : Params) (d : Decoding) : Except Cause Decoding := do
  let tag ← d.rd d.cur
  abortIf (tag ≠ p.tagOctet) .obisBadHeaderType
  let len ← d.rd (d.cur + 1)
  abortIf (len.toNat ≠ p.obisCodeLen) .obisBadHeaderLen
  let c0 ← d.rd (d.cur + 2)
  let c1 ← d.rd (d.cur + 3)
  let c2 ← d.rd (d.cur + 4)
  let c3 ← d.rd (d.cur + 5)
  let c4 ← d.rd (d.cur + 6)
  let c5 ← d.rd (d.cur + 7)
  return { d with code := #v[c0, c1, c2, c3, c4, c5], cur := d.cur + 8 }

/-- The data-type tag is read, then the code is classified; v is the cursor after the tag (R285, R286, R287). -/
def fetchTag (p : Params) (d : Decoding) : Except Cause Decoding := do
  let dt ← d.rd d.cur
  let ct ← classify p d.code
  return { d with dt := dt, cur := d.cur + 1, ct := ct, v := d.cur + 1 }

/-- The U32 operation (R301). -/
def u32Value (d : Decoding) : Except Cause Decoding := do
  abortIf (d.pt.length < d.v + 4) .obisTruncated
  let b0 ← d.rd d.v
  let b1 ← d.rd (d.v + 1)
  let b2 ← d.rd (d.v + 2)
  let b3 ← d.rd (d.v + 3)
  return { d with ms := d.ms.storeNum d.ct ⟨be32 b0 b1 b2 b3, 0#2⟩, dlen := 4 }

/-- The U16 operation, with its scale code (R302, R303). -/
def u16Value (p : Params) (d : Decoding) : Except Cause Decoding := do
  abortIf (d.pt.length < d.v + 2) .obisTruncated
  let b0 ← d.rd d.v
  let b1 ← d.rd (d.v + 1)
  return { d with ms := d.ms.storeNum d.ct ⟨(be16 b0 b1).setWidth 32, scaleCode p d.pt d.v⟩, dlen := 2 }

/-- Store an octet string under a Timestamp, SerialNumber or DeviceName code-type; any other discards it (R304, R305, R306). -/
def storeOctets (ms : MeasurementSet) (ct : Option CodeType) (val : Bytes) : Except Cause MeasurementSet :=
  match ct with
  | some .timestamp =>
    match timestampOf val with
    | some t => .ok { ms with ts := some t }
    | none => .error .obisTsShort
  | some .serialNumber => .ok { ms with serial := some val }
  | some .deviceName => .ok { ms with name := some val }
  | _ => .ok ms

/-- The OCTET operation; the cursor moves past the length byte (R304). -/
def octetValue (d : Decoding) : Except Cause Decoding := do
  let n ← d.rd d.cur
  abortIf (d.pt.length < d.cur + 1 + n.toNat) .obisTruncated
  let ms ← storeOctets d.ms d.ct (slice d.pt (d.cur + 1) (d.cur + 1 + n.toNat))
  return { d with ms := ms, cur := d.cur + 1, dlen := n.toNat }

/-- The dispatch on the tag (R300, R311). -/
def tagOperation (p : Params) (d : Decoding) : Except Cause Decoding :=
  match decodeTag p d.dt with
  | .ok .u32 => u32Value d
  | .ok .u16 => u16Value p d
  | .ok .octet => octetValue d
  | _ => .error .obisBadDataType

/-- After the value: past the value and the record break, then the metadata peek (R307, R308). -/
def recordAdvance (p : Params) (d : Decoding) : Decoding :=
  let cur := d.cur + d.dlen + p.recBreak
  { d with cur := if d.pt[cur]? = some p.metaSentinel then cur + p.metaSkip else cur }

/-- One pass of the loop of R281. -/
def decodeRecord (p : Params) (d : Decoding) : Except Cause Decoding := do
  let d1 ← recordHeader p d
  let d2 ← fetchTag p d1
  let d3 ← tagOperation p d2
  return recordAdvance p d3

/-- The loop of R281, do-while, bounded by PLEN (R309). Every pass raises cur by at least 11 (R314), so a count of passes of
PLEN + 1 is never used up; running out is answered as TRUNCATED. -/
def recordLoop (p : Params) : Nat → Decoding → Except Cause MeasurementSet
  | 0, _ => .error .obisTruncated
  | passes + 1, d => do
    let d' ← decodeRecord p d
    if d'.cur < d'.pt.length then recordLoop p passes d' else return d'.ms

/-- `decode_records(PT)`: the MeasurementSet, or the abort's cause (R280, R281, R312). -/
def decodeRecords (p : Params) (pt : Bytes) : Except Cause MeasurementSet :=
  recordLoop p (pt.length + 1) (startDecoding p pt)

/-! ## The record decoder on State: the meanings of the data-type tags, and the decoder's other steps -/

/-- The state after a step of the record decoder: the new registers, or the abort (60_exceptions.md R384). -/
def State.decoderStep (s : State) (ph : Phase) (r : Except Cause Decoding) : State :=
  match r with
  | .ok d => s.setDecoding ph d
  | .error c => s.abort c

/-- U32: the double-long-unsigned operation on the record decoder's registers (R301). -/
def execU32 (s : State) : Outcome := .next (s.decoderStep .advance (u32Value s.dec))

/-- U16: the long-unsigned operation on the record decoder's registers (R302). -/
def execU16 (s : State) : Outcome := .next (s.decoderStep .advance (u16Value s.par.val s.dec))

/-- OCTET: the octet-string operation on the record decoder's registers (R304). -/
def execOctet (s : State) : Outcome := .next (s.decoderStep .advance (octetValue s.dec))

/-- The decoder's step at a record's first byte (R282 to R284). -/
def headerStep (s : State) : State := s.decoderStep .tag (recordHeader s.par.val s.dec)

/-- The decoder's step after a value: advance, then another record, or the delivery (R307 to R309, R312). -/
def advanceStep (s : State) : State :=
  let d := recordAdvance s.par.val s.dec
  if d.cur < d.pt.length then s.setDecoding .header d else s.deliver d.ms

end Sys2Proof.Machine
end

