-- ==== Sys2Proof/Machine/Pipeline.lean ====
section
/-! DEFINITION. The take and the decode pipeline (40_accumulator.md R160): reassemble, open the envelope, decode the records,
then deliver or abort, all inside one event. -/

namespace Sys2Proof.Machine

/-- The stages before delivery: a pure function of the parameters, the key and RAW (60_exceptions.md R386). The first stage to
fail decides the abort (R13, R387). -/
def telegramOutcome (p : Params) (key : Bytes) (keyLoaded : Bool) (raw : Bytes) : Except Cause MeasurementSet := do
  let pb ← reassemble p raw
  let pt ← openEnvelope p key keyLoaded pb
  decodeRecords p pt

/-- The end of a decode: the delivery, or the abort (R160). -/
def State.finish (s : State) (r : Except Cause MeasurementSet) : State :=
  match r with
  | .ok ms => s.deliver ms
  | .error c => s.abort c

/-- The telegram in flight, TB[0 .. COUNT); `none` where an entry holds no value (10_state.md R25). -/
def State.telegram (s : State) : Option Bytes := Memory.readRange s.tb 0 s.count.toNat

/-- What decoding the telegram `raw` gives, with the key standing in the state (R160, 20_memory.md R95). -/
def State.decodeOf (s : State) (raw : Bytes) : Except Cause MeasurementSet :=
  telegramOutcome s.par.val s.key.toList s.keyLoaded raw

/-- `take_and_decode()` (R160): the take empties the buffer, then the pipeline runs (20_memory.md R82). -/
def State.takeAndDecode (s : State) : Outcome :=
  match s.telegram with
  | none => .fault .tbNoValue
  | some raw => .next (s.discardBuffer.finish (s.decodeOf raw))

end Sys2Proof.Machine
end

