-- ==== Sys2Proof/Machine/Accumulator.lean ====
section
/-! DEFINITION. The frame accumulator and the inactivity timeout detector: FEED, CHECK and TICK (40_accumulator.md). -/

namespace Sys2Proof.Machine

/-- FEED: LAST_ARRIVAL ← NOW, then the overflow abort when COUNT = BUF_CAP, else the byte is appended (R151, R153). -/
def execFeed (byte : BitVec 8) (s : State) : Outcome :=
  let s1 := s.markArrival
  if s.count.toNat = s.par.val.bufCap then .next (s1.abort .framingBufferOverflow)
  else if s.par.val.bufCap < s.count.toNat then .fault .tbOutOfRange
  else .next (s1.appendByte byte)

/-- CHECK: take and decode when the telegram is complete, else nothing changes (R157). -/
def execCheck (s : State) : Outcome := if s.complete then s.takeAndDecode else .next s

/-- TICK: NOW advances, then with AUTO = 1 a complete telegram is taken and decoded (R158). -/
def tickEvent (s : State) : Outcome :=
  let s1 := s.advanceNow
  if s1.auto = 1#1 ∧ s1.complete = true then s1.takeAndDecode else .next s1

end Sys2Proof.Machine
end

