-- ==== Sys2Proof/Machine/HostCommands.lean ====
section
/-! DEFINITION. The host's configuration commands (45_host_and_sink.md R345 to R356). -/

namespace Sys2Proof.Machine

/-- NOP: no state change (R347). -/
def execNop (s : State) : Outcome := .next s

/-- KEYB: KEY[IDX] ← KBYTE, and bit IDX of KEY_MASK is set (R345). -/
def execKeyb (idx : BitVec 4) (kbyte : BitVec 8) (s : State) : Outcome := .next (s.writeKey idx kbyte)

/-- SETTO: TIMEOUT ← TVAL (R350). -/
def execSetto (tval : BitVec 24) (s : State) : Outcome := .next (s.setTimeout tval)

/-- SETCTL: AUTO ← AUTOV (R352). -/
def execSetctl (autov : BitVec 1) (s : State) : Outcome := .next (s.setAuto autov)

/-- SETIE: IRQ_EN ← IEV (R354). -/
def execSetie (iev : BitVec 3) (s : State) : Outcome := .next (s.setIrqEn iev)

/-- CLRIRQ: IRQ_PEND ← IRQ_PEND & ~CLR (R356). -/
def execClrirq (clr : BitVec 3) (s : State) : Outcome := .next (s.clearIrq clr)

end Sys2Proof.Machine
end

