-- ==== Sys2Proof/Machine/ReadPort.lean ====
section
/-! DEFINITION. The read port: the register map (10_state.md R38 to R41) and READ (45_host_and_sink.md R358). -/

namespace Sys2Proof.Machine

/-- OUT_VALID bit k. -/
def Outputs.present (o : Outputs) (k : Nat) : Bool := o.valid.getLsbD k

/-- OUT_VAL[k] as read: 0 while OUT_VALID bit k is 0 (R41). -/
def Outputs.readVal (o : Outputs) (k : Nat) : Word := if o.present k then o.val[k]?.getD 0#32 else 0#32

/-- OUT_SCALE[k] as read, in bits [1:0]: 0 while OUT_VALID bit k is 0 (R39, R41). -/
def Outputs.readScale (o : Outputs) (k : Nat) : Word :=
  if o.present k then (o.scale[k]?.getD 0#2).setWidth 32 else 0#32

/-- Byte i of a text window: the text's byte below its length, 0 from there on (R40). -/
def textByte (len : Byte) (text : Vector Byte 255) (i : Nat) : Byte :=
  if i < len.toNat then text[i]?.getD 0#8 else 0#8

/-- Word w of a text window: byte 4w + j in bits [8j+7:8j] (R39, 20_memory.md R86). -/
def textWord (len : Byte) (text : Vector Byte 255) (w : Nat) : Word :=
  textByte len text (4 * w + 3) ++ textByte len text (4 * w + 2) ++ textByte len text (4 * w + 1) ++
    textByte len text (4 * w)

/-- OUT_TS_DATE: [31:16] YEAR, [15:8] MONTH, [7:0] DAY (R39). -/
def Timestamp.dateWord (t : Timestamp) : Word := t.year ++ t.month ++ t.day

/-- OUT_TS_TIME: [23:16] HOUR, [15:8] MIN, [7:0] SEC (R39). -/
def Timestamp.timeWord (t : Timestamp) : Word := 0#8 ++ t.hour ++ t.minute ++ t.second

/-- The register at word address a' (R39). Every address not listed there reads 0 (R38). -/
def State.registerAt (s : State) (a' : Nat) : Word :=
  if a' = 0x000 then s.statusWord
  else if a' = 0x004 then s.count
  else if a' = 0x008 then s.timeout.setWidth 32
  else if a' = 0x00C then s.now
  else if a' = 0x010 then s.lastArrival
  else if a' = 0x014 then s.result.word
  else if a' = 0x018 then s.irqPend.setWidth 32
  else if a' = 0x01C then s.irqEn.setWidth 32
  else if a' = 0x020 then s.out.valid.setWidth 32
  else if a' = 0x024 then s.deliverCount
  else if a' = 0x028 then s.errorCount
  else if 0x040 ≤ a' ∧ a' < 0x0A8 then
    (if (a' - 0x040) % 8 = 0 then s.out.readVal ((a' - 0x040) / 8) else s.out.readScale ((a' - 0x040) / 8))
  else if a' = 0x0C0 then s.out.ts.dateWord
  else if a' = 0x0C4 then s.out.ts.timeWord
  else if a' = 0x0C8 then s.out.serialLen.setWidth 32
  else if a' = 0x0CC then s.out.nameLen.setWidth 32
  else if 0x100 ≤ a' ∧ a' < 0x200 then textWord s.out.serialLen s.out.serial ((a' - 0x100) / 4)
  else if 0x200 ≤ a' ∧ a' < 0x300 then textWord s.out.nameLen s.out.name ((a' - 0x200) / 4)
  else 0#32

/-- The word a READ of A = a[11:2] returns: the register at {A, 0b00} (R38, 45_host_and_sink.md R358). -/
def State.readWord (s : State) (a : BitVec 10) : Word := s.registerAt (4 * a.toNat)

/-- READ: rd_data ← word(a'); no register changes (R38, R358). -/
def execRead (a : BitVec 10) (s : State) : Outcome := .next (s.setRdData (s.readWord a))

end Sys2Proof.Machine
end

