-- ==== Sys2Proof/Machine/Dispatch.lean ====
section
/-! DEFINITION. One arm per instruction. -/

namespace Sys2Proof.Machine

def exec (i : Instr) (s : State) : Host.Outcome State Fault Refusal :=
  match i with
  | .nop => Sys2Proof.Machine.execNop s
  | .feed byte => Sys2Proof.Machine.execFeed byte s
  | .check => Sys2Proof.Machine.execCheck s
  | .keyb idx kbyte => Sys2Proof.Machine.execKeyb idx kbyte s
  | .setto tval => Sys2Proof.Machine.execSetto tval s
  | .setctl autov => Sys2Proof.Machine.execSetctl autov s
  | .setie iev => Sys2Proof.Machine.execSetie iev s
  | .clrirq clr => Sys2Proof.Machine.execClrirq clr s
  | .read a => Sys2Proof.Machine.execRead a s
  | .u32 => Sys2Proof.Machine.execU32 s
  | .u16 => Sys2Proof.Machine.execU16 s
  | .octet => Sys2Proof.Machine.execOctet s

end Sys2Proof.Machine
end

