-- ==== Sys2Proof/Machine/Fetch.lean ====
section
/-! DEFINITION. What the engine does next: the event it takes (10_state.md R20), or, where a decode stands in the middle of a
record, the record decoder's next step (44_record_decoder.md R281). It answers with the instruction to run and the state to
run it on, or, for what is no instruction (TICK, RESET, an illegal word, a step between two tags), with the outcome itself. -/

namespace Sys2Proof.Machine

/-- What the engine does next. -/
inductive Action where
  /-- Run an instruction on a state. -/
  | run (i : Instr) (s : State)
  /-- The step is no instruction; this is its outcome. -/
  | done (o : Outcome)

/-- Taking one event, which has left the inbox (R20, 30_encoding.md R104 to R106). -/
def eventAction (e : Event) (s : State) : Action :=
  match e with
  | .reset => .done (.next s.resetEvent)
  | .tick => .done (tickEvent s)
  | .cmd w =>
    match decodeCmd w with
    | .ok i => .run i s
    | .error _ => .done (.next s.illegalCommand)
  | .read a => .run (decodeRead a) s

/-- The record decoder at a data-type tag: the tag is fetched and the code classified, and the tag's operation is the
instruction to run; any other tag is BAD_DATA_TYPE (R285 to R287, R300, R311). -/
def tagAction (s : State) : Action :=
  match fetchTag s.par.val s.dec with
  | .error c => .done (.next (s.abort c))
  | .ok d =>
    match decodeTag s.par.val d.dt with
    | .ok i => .run i (s.setDecoding .tag d)
    | .error _ => .done (.next (s.abort .obisBadDataType))

/-- The next action. With no event presented the engine holds its state (60_exceptions.md R401). -/
def nextAction (s : State) : Action :=
  match s.phase with
  | .idle =>
    match s.inbox with
    | [] => .done (.next s)
    | e :: es => eventAction e (s.setInbox es)
  | .header => .done (.next (headerStep s))
  | .tag => tagAction s
  | .advance => .done (.next (advanceStep s))

/-- Where the next step fetches a given encoding from. A command word or a read address is the next event taken. A data-type
tag stands at the record decoder's cursor in PT, under an OBIS code of the Electricity medium with fields C and D zero, with
zero bytes after it as operands, as many as the longest operation reads (log entry 7). -/
def State.placeEncoding (s : State) : Encoding → State
  | .cmd w => (s.setInbox (.cmd w :: s.inbox)).setDecoding .idle s.dec
  | .read a => (s.setInbox (.read a :: s.inbox)).setDecoding .idle s.dec
  | .tag b =>
    s.setDecoding .tag
      { s.dec with
        pt := b :: List.replicate 256 0#8
        cur := 0
        code := #v[s.par.val.medElec, 0#8, 0#8, 0#8, 0#8, 0#8] }

end Sys2Proof.Machine
end

