-- ==== Sys2Proof/Machine/Step.lean ====
section
/-! DEFINITION. One step of the engine: one event, taken and run to completion (10_state.md R20). -/

namespace Sys2Proof.Machine

/-- One step: the next action, its instruction run by `exec`. -/
def step (s : State) : Host.Outcome State Fault Refusal :=
  match nextAction s with
  | .run i t => exec i t
  | .done o => o

/-- `s` with the encoding of an opcode-table word placed where the next step takes its instruction from; a word of a length
the table does not have leaves `s` as it is. -/
def State.withFetchWord (s : State) (nbits w : Nat) : State :=
  match tableEncoding nbits w with
  | some e => s.placeEncoding e
  | none => s

end Sys2Proof.Machine
end

