-- ==== Sys2Proof/Machine/Assembler.lean ====
section
/-! DEFINITION. The assembler syntax of the spec, its pseudo-instructions, and the host's two protocols as event sequences
(30_encoding.md R107, R108; 70_reset_and_hazards.md R423; 45_host_and_sink.md R361). -/

namespace Sys2Proof.Machine

/-- One line of the assembler: a command, a READ, a TICK, a RESET, or a pseudo-instruction (R107, R108). -/
inductive AsmLine where
  /-- A command of R101 (its operands are in range by their types). -/
  | command (i : Instr)
  /-- `READ a`. -/
  | read (a : BitVec 12)
  /-- `TICK`. -/
  | tick
  /-- `RESET`. -/
  | reset
  /-- `FEEDS b0 b1 ... bn-1`. -/
  | feeds (bs : Bytes)
  /-- `KEY k0 .. k15`. -/
  | key (k : Vector Byte 16)
  /-- `WAIT n`. -/
  | wait (n : Nat)
  /-- `POLL b0 .. bn-1`. -/
  | poll (bs : Bytes)
deriving DecidableEq, Repr

/-- The event of an encoding; a data-type tag is no event. -/
def encodingEvents : Encoding → List Event
  | .cmd w => [.cmd w]
  | .read a => [.read a]
  | .tag _ => []

/-- The events of a command's encoding (30_encoding.md R101). A command's encoding depends on no parameter. -/
def commandEvents (i : Instr) : List Event := encodingEvents (encode Config.defaultParams i)

/-- `FEEDS`: one FEED per byte, in order (R108). -/
def feedsEvents (bs : Bytes) : List Event := bs.flatMap fun b => commandEvents (.feed b)

/-- `KEY`: KEYB 0, k0 to KEYB 15, k15 (R108). -/
def keyEvents (k : Vector Byte 16) : List Event :=
  (List.range 16).flatMap fun i => commandEvents (.keyb (BitVec.ofNat 4 i) (k[i]?.getD 0#8))

/-- `WAIT n`: n TICK events (R108). -/
def waitEvents (n : Nat) : List Event := List.replicate n .tick

/-- `POLL`: FEEDS followed by CHECK (R108). -/
def pollEvents (bs : Bytes) : List Event := feedsEvents bs ++ commandEvents .check

/-- The events of a line (R107, R108). -/
def AsmLine.events : AsmLine → List Event
  | .command i => commandEvents i
  | .read a => [.read a]
  | .tick => [.tick]
  | .reset => [.reset]
  | .feeds bs => feedsEvents bs
  | .key k => keyEvents k
  | .wait n => waitEvents n
  | .poll bs => pollEvents bs

/-- The sixteen hex digits of R107's numbers, each at the index that is its value. -/
def hexDigits : List Char := ['0', '1', '2', '3', '4', '5', '6', '7', '8', '9', 'a', 'b', 'c', 'd', 'e', 'f']

/-- The number that digits spell, given the digits of the base: each digit counts as its index among them, and a character
that is none of them spells nothing. An upper-case digit counts as its lower-case one (log entry 8). -/
def spelled (digits : List Char) (cs : List Char) : Option Nat :=
  (cs.mapM fun c => digits.findIdx? fun d => d == c.toLower).map (Nat.ofDigits digits.length ·.reverse)

/-- A decimal or `0x` hex number (R107). -/
def parseNumber : List Char → Option Nat
  | [] => none
  | '0' :: 'x' :: [] => none
  | '0' :: 'x' :: c :: cs => spelled hexDigits (c :: cs)
  | c :: cs => spelled (hexDigits.take 10) (c :: cs)

/-- A number in range for a field of `n` bits (30_encoding.md R102). -/
def fieldOf (n v : Nat) : Option (BitVec n) := if v < 2 ^ n then some (BitVec.ofNat n v) else none

/-- Numbers that are all bytes. -/
def bytesOf (vs : List Nat) : Option Bytes := vs.mapM (fieldOf 8)

/-- Whether a character separates the words of a line: a space, a tab or a comma. -/
def isSeparator (c : Char) : Bool := c == ' ' || c == ',' || c == '\t'

/-- The words of a line, without its comment after `;` (R107). -/
def lineWords (cs : List Char) : List (List Char) :=
  ((cs.takeWhile (fun c => c != ';')).splitOnP isSeparator).filter fun w => !w.isEmpty

/-- A line of its mnemonic and its operands (R107, R108). -/
def lineOf (mnemonic : List Char) (vs : List Nat) : Option AsmLine :=
  if mnemonic = ['N', 'O', 'P'] then (match vs with | [] => some (.command .nop) | _ => none)
  else if mnemonic = ['C', 'H', 'E', 'C', 'K'] then (match vs with | [] => some (.command .check) | _ => none)
  else if mnemonic = ['T', 'I', 'C', 'K'] then (match vs with | [] => some .tick | _ => none)
  else if mnemonic = ['R', 'E', 'S', 'E', 'T'] then (match vs with | [] => some .reset | _ => none)
  else if mnemonic = ['F', 'E', 'E', 'D'] then
    (match vs with | [b] => (fieldOf 8 b).map fun x => .command (.feed x) | _ => none)
  else if mnemonic = ['K', 'E', 'Y', 'B'] then
    (match vs with
      | [i, b] => (fieldOf 4 i).bind fun x => (fieldOf 8 b).map fun y => .command (.keyb x y)
      | _ => none)
  else if mnemonic = ['S', 'E', 'T', 'T', 'O'] then
    (match vs with | [t] => (fieldOf 24 t).map fun x => .command (.setto x) | _ => none)
  else if mnemonic = ['S', 'E', 'T', 'C', 'T', 'L'] then
    (match vs with | [a] => (fieldOf 1 a).map fun x => .command (.setctl x) | _ => none)
  else if mnemonic = ['S', 'E', 'T', 'I', 'E'] then
    (match vs with | [m] => (fieldOf 3 m).map fun x => .command (.setie x) | _ => none)
  else if mnemonic = ['C', 'L', 'R', 'I', 'R', 'Q'] then
    (match vs with | [m] => (fieldOf 3 m).map fun x => .command (.clrirq x) | _ => none)
  else if mnemonic = ['R', 'E', 'A', 'D'] then
    (match vs with | [a] => (fieldOf 12 a).map fun x => .read x | _ => none)
  else if mnemonic = ['F', 'E', 'E', 'D', 'S'] then (bytesOf vs).map fun bs => .feeds bs
  else if mnemonic = ['K', 'E', 'Y'] then
    (bytesOf vs).bind fun bs => if h : bs.length = 16 then some (.key ⟨bs.toArray, by simp [h]⟩) else none
  else if mnemonic = ['W', 'A', 'I', 'T'] then (match vs with | [n] => some (.wait n) | _ => none)
  else if mnemonic = ['P', 'O', 'L', 'L'] then (bytesOf vs).map fun bs => .poll bs
  else none

/-- One line of assembler text: its mnemonic, then its operands (R107; separators: log entry 8). -/
def parseLine (cs : List Char) : Option AsmLine :=
  match lineWords cs with
  | [] => none
  | m :: ops =>
    match ops.mapM parseNumber with
    | some vs => lineOf m vs
    | none => none

/-- The events of assembler text, one line a list of characters; `none` where a line is not of the syntax. -/
def assemble (lines : List (List Char)) : Option (List Event) :=
  (lines.mapM parseLine).map fun ls => ls.flatMap AsmLine.events

/-- The boot sequence: RESET, the 16 KEYB commands, then SETTO, SETIE and SETCTL, each of these three optional
(70_reset_and_hazards.md R423). -/
def bootEvents (k : Vector Byte 16) (t : Option (BitVec 24)) (m : Option (BitVec 3)) (a : Option (BitVec 1)) : List Event :=
  [.reset] ++ keyEvents k ++ (match t with | some t => commandEvents (.setto t) | none => []) ++
    (match m with | some m => commandEvents (.setie m) | none => []) ++
    (match a with | some a => commandEvents (.setctl a) | none => [])

/-- One try of the host's collection of a delivery: DELIVER_COUNT, the registers it needs, DELIVER_COUNT again
(45_host_and_sink.md R361). -/
def collectEvents (needed : List (BitVec 12)) : List Event :=
  [.read 0x024#12] ++ needed.map Event.read ++ [.read 0x024#12]

/-- Whether a try of the collection is to be kept: the two counts do not differ (R361). -/
def collectKept (firstCount lastCount : Word) : Bool := firstCount == lastCount

end Sys2Proof.Machine
end

