-- ==== Sys2Proof/Machine/Ports.lean ====
section
/-! DEFINITION. The ports (10_state.md R22) and the order in which one cycle's inputs become events (R21). -/

namespace Sys2Proof.Machine

/-- The inputs of one clock cycle of an implementation: rst, tick, cmd_valid with cmd_data, rd_en with rd_addr. -/
structure Cycle where
  rst : Bool
  tick : Bool
  cmd : Option (BitVec 32)
  rd : Option (BitVec 12)
deriving DecidableEq, Repr

/-- The events of one cycle in the order they are taken: RESET, then TICK, then CMD, then READ; while RESET is asserted the
others are discarded (R21, 70_reset_and_hazards.md R420). -/
def Cycle.events (c : Cycle) : List Event :=
  if c.rst then [.reset]
  else
    (if c.tick then [.tick] else []) ++ (match c.cmd with | some w => [.cmd w] | none => []) ++
      (match c.rd with | some a => [.read a] | none => [])

/-- Present the events of a cycle to the engine, after those already presented. -/
def State.present (s : State) (c : Cycle) : State := s.setInbox (s.inbox ++ c.events)

/-- The outputs of the engine: rd_data and irq (R22). -/
structure PortOutputs where
  rdData : Word
  irq : Bool
deriving DecidableEq, Repr

/-- The levels on the output ports. -/
def State.portOutputs (s : State) : PortOutputs := ⟨s.rdData, s.irq⟩

end Sys2Proof.Machine
end

