-- ==== Sys2Proof/Machine/Run.lean ====
section
/-! DEFINITION. Runs: one event taken, a sequence of events, a number of steps. -/

namespace Sys2Proof.Machine

/-- One event taken from start to end, in a state between two events (10_state.md R20). -/
def takeEvent (e : Event) (s : State) : Outcome :=
  match eventAction e s with
  | .run i t => exec i t
  | .done o => o

/-- A sequence of events, taken in order, stopping at the first stop (20_memory.md R93). -/
def runEvents : List Event → State → Outcome
  | [], s => .next s
  | e :: es, s =>
    match takeEvent e s with
    | .next t => runEvents es t
    | .fault r => .fault r
    | .refused r => .refused r

/-- A number of steps, stopping at the first stop. -/
def stepN : Nat → State → Outcome
  | 0, s => .next s
  | n + 1, s =>
    match step s with
    | .next t => stepN n t
    | .fault r => .fault r
    | .refused r => .refused r

end Sys2Proof.Machine
end

