-- ==== Sys2Proof/Machine/Sink.lean ====
section
/-! DEFINITION. What the Sink derives from the output registers: the exact value of a slot and the string of a timestamp
(10_state.md R42, 45_host_and_sink.md R343, R344). -/

namespace Sys2Proof.Machine

/-- OUT_VAL[k] / 10^OUT_SCALE[k], an exact rational (R42, R343). -/
def Reading.value (r : Reading) : Rat := (r.val.toNat : Rat) / ((10 ^ r.scale.toNat : Nat) : Rat)

/-- The value of slot k, `none` while it is absent (R41, R343). -/
def Outputs.slotValue (o : Outputs) (k : Nat) : Option Rat :=
  if o.present k then some (Reading.value ⟨o.val[k]?.getD 0#32, o.scale[k]?.getD 0#2⟩) else none

/-- A number in decimal, zero-padded to at least `width` digits (R344). -/
def padDec (width n : Nat) : List Char :=
  let ds := Nat.toDigits 10 n
  List.replicate (width - ds.length) '0' ++ ds

/-- `ts_string(y, mo, d, h, mi, s)`, with no field checked (R344). -/
def Timestamp.tsString (t : Timestamp) : List Char :=
  padDec 4 t.year.toNat ++ ['-'] ++ padDec 2 t.month.toNat ++ ['-'] ++ padDec 2 t.day.toNat ++ ['T'] ++
    padDec 2 t.hour.toNat ++ [':'] ++ padDec 2 t.minute.toNat ++ [':'] ++ padDec 2 t.second.toNat ++ ['Z']

end Sys2Proof.Machine
end

