-- ==== Sys2Proof/Safety.lean ====
section
/-! DEFINITION. What counts as a legal state and a safe run, and the wire forms that claims speak of. -/

namespace Sys2Proof.Machine

/-- The TelegramBuffer is sound: its cells are in canonical form and are exactly the entries 0 .. COUNT - 1, and COUNT is at
most BUF_CAP (10_state.md R25). -/
def State.BufferSound (s : State) : Prop :=
  Memory.wf s.tb = true ∧ s.tb.map Prod.fst = List.range s.count.toNat ∧ s.count.toNat ≤ s.par.val.bufCap

/-- RESULT is NONE, OK, or the report of one of the abort causes (10_state.md R32, 60_exceptions.md R380 to R383,
93_implementation_defined.md U4). -/
def Result.Legal (r : Result) : Prop := r = ⟨0#2, 0#3, 0#8⟩ ∨ r = Result.ok ∨ ∃ c : Cause, r = Cause.result c

/-- A MeasurementSet as the decoder builds it: no PowerFactor (00_scope.md R6), scale codes 0 to 2 (10_state.md R34), texts of
at most 255 bytes (44_record_decoder.md R304). -/
def MeasurementSet.Legal (ms : MeasurementSet) : Prop :=
  ms.num[12] = none ∧
  (∀ k : Fin 13, ∀ r : Reading, ms.num[k] = some r → r.scale ≠ 3#2) ∧
  (∀ t : Bytes, ms.serial = some t → t.length ≤ 255) ∧
  (∀ t : Bytes, ms.name = some t → t.length ≤ 255)

/-- The output group as deliveries leave it: OUT_VALID bit 12 clear, no scale code 3, absent fields 0, text bytes past the
length 0 (45_host_and_sink.md R341, 93_implementation_defined.md U4). -/
def Outputs.Legal (o : Outputs) : Prop :=
  o.valid.getLsbD 12 = false ∧
  (∀ k : Fin 13, o.scale[k] ≠ 3#2) ∧
  (∀ k : Fin 13, o.valid.getLsbD k.val = false → o.val[k] = 0#32 ∧ o.scale[k] = 0#2) ∧
  (o.valid.getLsbD 13 = false → o.ts = Timestamp.zero) ∧
  (o.valid.getLsbD 14 = false → o.serialLen = 0#8) ∧
  (o.valid.getLsbD 15 = false → o.nameLen = 0#8) ∧
  (∀ i : Fin 255, o.serialLen.toNat ≤ i.val → o.serial[i] = 0#8) ∧
  (∀ i : Fin 255, o.nameLen.toNat ≤ i.val → o.name[i] = 0#8)

/-- The record decoder's registers are legal, and hold nothing between events (10_state.md R35). -/
def State.DecoderSound (s : State) : Prop :=
  s.dec.ms.Legal ∧ s.dec.ct ≠ some .powerFactor ∧ (s.phase = .idle → s.dec = Decoding.empty)

/-- The invariant of the engine. -/
structure State.Inv (s : State) : Prop where
  buffer : s.BufferSound
  result : s.result.Legal
  outputs : s.out.Legal
  decoder : s.DecoderSound

/-- A safe step: the engine goes on. -/
def State.StepSafe (s : State) : Prop := ∃ t : State, step s = .next t

/-- The states that runs from RESET reach, over any parameter set and any events presented (70_reset_and_hazards.md R422,
10_state.md R21). -/
inductive Reachable : State → Prop where
  | initial (p : LegalParams) : Reachable (State.initial p)
  | present (s : State) (es : List Event) : Reachable s → Reachable (s.setInbox (s.inbox ++ es))
  | step (s t : State) : Reachable s → Sys2Proof.Machine.step s = .next t → Reachable t

/-- An M-Bus frame on the wire, but for its markers and length bytes (30_encoding.md R109). -/
structure Frame where
  /-- The link header bytes, not checked. -/
  link : Bytes
  /-- The payload span. -/
  payload : Bytes
  /-- The footer bytes before the stop marker, not checked. -/
  footer : Bytes
deriving DecidableEq, Repr

/-- The frame's parts have the lengths that R109 gives them, and its length byte can hold L (R110). -/
def Frame.Valid (p : Params) (f : Frame) : Prop :=
  f.link.length = p.mbusFullHdr - p.mbusIntro ∧ f.footer.length = p.mbusFooter - 1 ∧
    f.link.length + f.payload.length < 256

/-- The frame's bytes: start, L, L, start, link header, payload, footer, stop (R109). -/
def Frame.bytes (p : Params) (f : Frame) : Bytes :=
  let l : Byte := BitVec.ofNat 8 (f.link.length + f.payload.length)
  [p.mbusStart, l, l, p.mbusStart] ++ f.link ++ f.payload ++ f.footer ++ [p.mbusStop]

/-- The event is a command word that decodes to the instruction `i`. -/
def Event.IsCommand (e : Event) (i : Instr) : Prop := ∃ w : BitVec 32, e = .cmd w ∧ decodeCmd w = .ok i

end Sys2Proof.Machine
end

