-- ==== Sys2Proof/Certificates/Slice0/Obligations.lean ====
section
/-! DEFINITION. The statements for the provers. A statement about every state says nothing of how the state was reached;
`takeEvent e s` is one event taken from start to end, `exec i s` one instruction, `step s` one step. -/

open Sys2Proof Sys2Proof.Machine

/-! ## Encodings -/

/-- 30_encoding.md R101, R102, R105, R118, over every legal parameter set: decoding what encodes an instruction gives the
instruction back, with every operand at every value. -/
def Obligations.DecodeOfEncodeIsTheInstruction : Prop :=
  ∀ (p : LegalParams) (i : Instr), i.wellFormed = true → decode p.val (encode p.val i) = .ok i

/-- Each command word, and each tag byte, has one meaning: encoding what it decodes to gives it back; a read address comes
back with its two ignored bits 0 (10_state.md R38). -/
def Obligations.EncodeOfDecodedIsTheEncoding : Prop :=
  (∀ (p : LegalParams) (w : BitVec 32) (i : Instr), decodeCmd w = .ok i → encode p.val i = .cmd w) ∧
  (∀ (p : LegalParams) (b : Byte) (i : Instr), decodeTag p.val b = .ok i → encode p.val i = .tag b) ∧
  (∀ (p : LegalParams) (a : BitVec 12), encode p.val (decodeRead a) = .read (a &&& 0xFFC#12))

/-- 30_encoding.md R103: a word is legal iff its OP is 0x00 .. 0x07 and the reserved bits of its row of R101 are 0; that is what
the match and mask rows say; no word matches two rows. R104: every word is exactly one legal command, or illegal. -/
def Obligations.LegalWordsAreTheEightRows : Prop :=
  (∀ w : BitVec 32, legalCmd w = true ↔
    (w.extractLsb' 24 8 = 0x00#8 ∧ w.extractLsb' 0 24 = 0#24) ∨ (w.extractLsb' 24 8 = 0x01#8 ∧ w.extractLsb' 8 16 = 0#16) ∨
    (w.extractLsb' 24 8 = 0x02#8 ∧ w.extractLsb' 0 24 = 0#24) ∨ (w.extractLsb' 24 8 = 0x03#8 ∧ w.extractLsb' 12 12 = 0#12) ∨
    w.extractLsb' 24 8 = 0x04#8 ∨ (w.extractLsb' 24 8 = 0x05#8 ∧ w.extractLsb' 1 23 = 0#23) ∨
    (w.extractLsb' 24 8 = 0x06#8 ∧ w.extractLsb' 3 21 = 0#21) ∨ (w.extractLsb' 24 8 = 0x07#8 ∧ w.extractLsb' 3 21 = 0#21)) ∧
  (∀ w : BitVec 32, legalCmd w = true ↔ ∃ i : Instr, decodeCmd w = .ok i) ∧
  (∀ (w : BitVec 32) (r₁ r₂ : CmdRow), r₁ ∈ cmdRows → r₂ ∈ cmdRows → r₁.holds w = true → r₂.holds w = true → r₁ = r₂)

/-- The example words of 40_accumulator.md R151 and R157 and of 45_host_and_sink.md R345 to R356 decode to the commands they are
written for, and the default tags of 30_encoding.md R118 to the three operations. -/
def Obligations.SpecExampleWordsDecode : Prop :=
  decodeCmd 0x01000068#32 = .ok (.feed 0x68#8) ∧ decodeCmd 0x02000000#32 = .ok .check ∧
  decodeCmd 0x03000F0F#32 = .ok (.keyb 15#4 0x0F#8) ∧ decodeCmd 0x00000000#32 = .ok .nop ∧
  decodeCmd 0x04000064#32 = .ok (.setto 100#24) ∧ decodeCmd 0x05000001#32 = .ok (.setctl 1#1) ∧
  decodeCmd 0x06000003#32 = .ok (.setie 3#3) ∧ decodeCmd 0x07000001#32 = .ok (.clrirq 1#3) ∧
  decodeCmd 0x01000168#32 = .error .reservedBitSet ∧ decodeCmd 0x09000000#32 = .error .unassignedOpcode ∧
  decodeRead 0x01D#12 = .read 7#10 ∧
  decodeTag Config.defaultParams 0x06#8 = .ok .u32 ∧ decodeTag Config.defaultParams 0x12#8 = .ok .u16 ∧
  decodeTag Config.defaultParams 0x09#8 = .ok .octet

/-- 00_scope.md R9, 60_exceptions.md R402: a machine's parameter set can be built exactly when it meets every constraint of R8's
column "legal values", also those of the 14 parameters that have a single legal value. The clause that no row of the table is
PowerFactor is DEDUCED (log entry 5). -/
def Obligations.IllegalParametersAreRefused : Prop :=
  ∀ p : Params, p.build.isSome = true ↔
    (1 ≤ p.bufCap ∧ p.bufCap ≤ 2 ^ 32 - 1) ∧ p.timeoutReset ≤ 2 ^ 24 - 1 ∧ p.mbusIntro ≤ p.mbusFullHdr ∧ 1 ≤ p.mbusFooter ∧
    p.dlmsLenCorr ≤ 65535 ∧ (12 ≤ p.tagLen ∧ p.tagLen ≤ 16) ∧ 6 ≤ p.decStart ∧
    (p.tagU32 ≠ p.tagOctet ∧ p.tagU16 ≠ p.tagOctet ∧ p.tagU16 ≠ p.tagU32) ∧ p.medElec ≠ p.medAbstract ∧
    (p.obisTable.length = 15 ∧ (p.obisTable.map fun r => (r.c, r.d)).Nodup) ∧ p.metaSkip ≤ 255 ∧
    (∀ r ∈ p.obisTable, r.codeType ≠ .powerFactor) ∧
    p.timeBits = 32 ∧ p.mbusIntro = 4 ∧ p.dlmsSystLen = 8 ∧ p.dlmsHdrExt = 2 ∧ p.dlmsHdr = 16 ∧ p.dlmsMin = 16 ∧
    p.obisCodeLen = 6 ∧ p.metaSentinel = 0x0F#8 ∧ p.recBreak = 2 ∧ p.scalerOff = 5 ∧ p.scale10 = 0xFF#8 ∧
    p.scale100 = 0xFE#8 ∧ p.keyLen = 16 ∧ p.nonceLen = 12

/-! ## The step -/

/-- Between events, one step takes one event from start to end (10_state.md R20); when that is a command word that decodes, or a
read address, the step is `exec` of the decoded instruction (30_encoding.md R104, R105); with no event presented the engine
holds its state (60_exceptions.md R401). That the events presented wait in the field `inbox`, and that the step takes the oldest
of them and removes it, is the model's choice (log entry 6). -/
def Obligations.StepRunsTheDecodedCommand : Prop :=
  (∀ (s : State) (w : BitVec 32) (es : List Event) (i : Instr), s.phase = .idle → s.inbox = .cmd w :: es →
    decodeCmd w = .ok i → step s = exec i (s.setInbox es)) ∧
  (∀ (s : State) (a : BitVec 12) (es : List Event), s.phase = .idle → s.inbox = .read a :: es →
    step s = exec (.read (a.extractLsb' 2 10)) (s.setInbox es)) ∧
  (∀ (s : State) (e : Event) (es : List Event), s.phase = .idle → s.inbox = e :: es → step s = takeEvent e (s.setInbox es)) ∧
  (∀ s : State, s.phase = .idle → s.inbox = [] → step s = .next s)

/-- At a data-type tag, the step fetches the tag at the cursor, classifies the code, and runs the instruction the tag decodes
to, with cur and v just past the tag (44_record_decoder.md R285 to R287, R300). That the tag is one step of its own, from the
field phase at `tag`, is the model's choice (log entry 4). -/
def Obligations.StepRunsTheDecodedTag : Prop :=
  ∀ (s : State) (b : Byte) (ct : Option CodeType) (i : Instr), s.phase = .tag → s.dec.pt[s.dec.cur]? = some b →
    classify s.par.val s.dec.code = .ok ct → decodeTag s.par.val b = .ok i →
    step s = exec i { s with dec := { s.dec with dt := b, cur := s.dec.cur + 1, ct := ct, v := s.dec.cur + 1 } }

/-- 10_state.md R21: in one cycle RESET comes first and discards the rest; else TICK, then CMD, then READ. -/
def Obligations.CycleEventsComeInOrder : Prop :=
  (∀ c : Cycle, c.rst = true → c.events = [.reset]) ∧
  (∀ (w : BitVec 32) (a : BitVec 12), (⟨false, true, some w, some a⟩ : Cycle).events = [.tick, .cmd w, .read a]) ∧
  (∀ (t : Bool) (w : Option (BitVec 32)) (a : Option (BitVec 12)),
    (⟨false, t, w, a⟩ : Cycle).events = (if t then [.tick] else []) ++ (w.map Event.cmd).toList ++ (a.map Event.read).toList)

/-- 30_encoding.md R106: a word that matches no row of R103 sets IRQ_PEND bit 2 and changes nothing else. -/
def Obligations.IllegalWordOnlySetsIllegal : Prop :=
  ∀ (s : State) (w : BitVec 32), legalCmd w = false →
    takeEvent (.cmd w) s = .next { s with irqPend := s.irqPend ||| 0b100#3 }

/-! ## Host commands: each completes in every state, and this is all it changes -/

/-- 45_host_and_sink.md R347. -/
def Obligations.NopChangesNothing : Prop :=
  (∀ s : State, exec .nop s = .next s) ∧ (∀ w : BitVec 32, decodeCmd w = .ok .nop ↔ w = 0#32)

/-- 45_host_and_sink.md R345: KEY[IDX] and KEY_MASK bit IDX are written, no other key byte, no other mask bit, nothing else; a
second write of the same index keeps the last byte. KEY_LOADED becomes 1 exactly when all 16 mask bits are set. -/
def Obligations.KeybWritesOneKeyByte : Prop :=
  ∀ (s : State) (i : BitVec 4) (b : Byte), decodeCmd (0x03#8 ++ 0#12 ++ i ++ b) = .ok (.keyb i b) ∧
    ∃ t : State, exec (.keyb i b) s = .next t ∧
    t = { s with key := t.key, keyMask := t.keyMask } ∧
    (∀ j : Fin 16, t.key[j] = if j.val = i.toNat then b else s.key[j]) ∧
    (∀ j : Fin 16, t.keyMask.getLsbD j = (decide (j.val = i.toNat) || s.keyMask.getLsbD j)) ∧
    (∀ c : Byte, exec (.keyb i c) t = exec (.keyb i c) s) ∧
    (t.keyLoaded = true ↔ ∀ j : Fin 16, t.keyMask.getLsbD j = true)

/-- 45_host_and_sink.md R350: every TVAL is legal; TIMEOUT is written and nothing else, so no completion test runs; the next test
of the telegram already in the buffer uses the new value. -/
def Obligations.SettoWritesTimeoutOnly : Prop :=
  ∀ (s : State) (v : BitVec 24), decodeCmd (0x04#8 ++ v) = .ok (.setto v) ∧
    ∃ t : State, exec (.setto v) s = .next t ∧ t = { s with timeout := v } ∧
      (t.complete = true ↔ s.count ≠ 0#32 ∧ s.elapsed.toNat > v.toNat)

/-- 45_host_and_sink.md R352: AUTO is written and nothing else, so no completion test runs at once. With AUTO = 1 the next TICK
tests; with AUTO = 0 a TICK only advances NOW. -/
def Obligations.SetctlWritesAutoOnly : Prop :=
  ∀ (s : State) (a : BitVec 1), decodeCmd (0x05#8 ++ 0#23 ++ a) = .ok (.setctl a) ∧
    ∃ t : State, exec (.setctl a) s = .next t ∧ t = { s with auto := a } ∧
      (a = 1#1 → takeEvent .tick t = exec .check { t with now := s.now + 1#32 }) ∧
      (a = 0#1 → takeEvent .tick t = .next { t with now := s.now + 1#32 })

/-- 45_host_and_sink.md R354: IRQ_EN is written, and irq follows at once. -/
def Obligations.SetieWritesEnablesOnly : Prop :=
  ∀ (s : State) (m : BitVec 3), decodeCmd (0x06#8 ++ 0#21 ++ m) = .ok (.setie m) ∧
    ∃ t : State, exec (.setie m) s = .next t ∧ t = { s with irqEn := m } ∧ (t.irq = true ↔ s.irqPend &&& m ≠ 0#3)

/-- 45_host_and_sink.md R356: the bits of CLR are cleared, the others left alone, and irq follows. -/
def Obligations.ClrirqClearsTheNamedBits : Prop :=
  ∀ (s : State) (m : BitVec 3), decodeCmd (0x07#8 ++ 0#21 ++ m) = .ok (.clrirq m) ∧
    ∃ t : State, exec (.clrirq m) s = .next t ∧ t = { s with irqPend := t.irqPend } ∧
      (∀ i : Fin 3, t.irqPend.getLsbD i = (s.irqPend.getLsbD i && !m.getLsbD i)) ∧
      (t.irq = true ↔ t.irqPend &&& s.irqEn ≠ 0#3)

/-- 60_exceptions.md R395: irq is the OR of pending AND enabled, a function of the state, and STATUS bit 3 reads it. -/
def Obligations.IrqIsPendingAndEnabled : Prop :=
  ∀ s : State, (s.irq = true ↔ ∃ i : Fin 3, s.irqPend.getLsbD i = true ∧ s.irqEn.getLsbD i = true) ∧
    (s.readWord 0#10).getLsbD 3 = s.irq

/-! ## The read port -/

/-- 10_state.md R38, 45_host_and_sink.md R358: a READ of any address completes, returns the word at the address with its two
low bits 0, and changes no register (rd_data is the port's output; the field that holds it is the model's own, log entry 3). So the READs of one collection (R361), with no other
event between them, end with DELIVER_COUNT on rd_data and change nothing else. -/
def Obligations.ReadReturnsTheWordAndChangesNothing : Prop :=
  (∀ (s : State) (a : BitVec 10), exec (.read a) s = .next { s with rdData := s.registerAt (4 * a.toNat) }) ∧
  (∀ (s : State) (a b : BitVec 12), a.extractLsb' 2 10 = b.extractLsb' 2 10 → takeEvent (.read a) s = takeEvent (.read b) s) ∧
  (∀ (s : State) (needed : List (BitVec 12)),
    runEvents (collectEvents needed) s = .next { s with rdData := s.deliverCount })

/-- The plain registers of 10_state.md R39, with every bit not named reading 0. -/
def Obligations.RegisterMapOfThePlainRegisters : Prop :=
  ∀ s : State,
    (∀ i : Fin 32, (s.registerAt 0x000).getLsbD i =
      if i.val = 0 then decide (s.count ≠ 0#32) else if i.val = 1 then decide (s.keyMask = 0xFFFF#16)
      else if i.val = 2 then decide (s.auto = 1#1) else if i.val = 3 then s.irq else false) ∧
    s.registerAt 0x004 = s.count ∧ (s.registerAt 0x008).toNat = s.timeout.toNat ∧ s.registerAt 0x00C = s.now ∧
    s.registerAt 0x010 = s.lastArrival ∧
    (s.registerAt 0x014).toNat = s.result.res.toNat + s.result.kind.toNat * 2 ^ 8 + s.result.sub.toNat * 2 ^ 16 ∧
    (s.registerAt 0x018).toNat = s.irqPend.toNat ∧ (s.registerAt 0x01C).toNat = s.irqEn.toNat ∧
    (s.registerAt 0x020).toNat = s.out.valid.toNat ∧ s.registerAt 0x024 = s.deliverCount ∧ s.registerAt 0x028 = s.errorCount ∧
    (s.registerAt 0x0C0).toNat = s.out.ts.year.toNat * 2 ^ 16 + s.out.ts.month.toNat * 2 ^ 8 + s.out.ts.day.toNat ∧
    (s.registerAt 0x0C4).toNat = s.out.ts.hour.toNat * 2 ^ 16 + s.out.ts.minute.toNat * 2 ^ 8 + s.out.ts.second.toNat ∧
    (s.registerAt 0x0C8).toNat = s.out.serialLen.toNat ∧ (s.registerAt 0x0CC).toNat = s.out.nameLen.toNat

/-- 10_state.md R39 to R41: the slots, the text windows (byte 4w + j in bits [8j+7:8j], 0 from the text's length on), and 0 at
every other word address. -/
def Obligations.RegisterMapOfSlotsAndTexts : Prop :=
  ∀ s : State,
    (∀ k : Fin 13, s.registerAt (0x040 + 8 * k.val) = if s.out.valid.getLsbD k then s.out.val[k] else 0#32) ∧
    (∀ k : Fin 13, s.registerAt (0x044 + 8 * k.val) = if s.out.valid.getLsbD k then s.out.scale[k].setWidth 32 else 0#32) ∧
    (∀ (w : Fin 64) (j : Fin 4), (s.registerAt (0x100 + 4 * w.val)).extractLsb' (8 * j.val) 8 =
      if 4 * w.val + j.val < s.out.serialLen.toNat then s.out.serial.toList.getD (4 * w.val + j.val) 0#8 else 0#8) ∧
    (∀ (w : Fin 64) (j : Fin 4), (s.registerAt (0x200 + 4 * w.val)).extractLsb' (8 * j.val) 8 =
      if 4 * w.val + j.val < s.out.nameLen.toNat then s.out.name.toList.getD (4 * w.val + j.val) 0#8 else 0#8) ∧
    (∀ a : Nat, (0x028 < a ∧ a < 0x040) ∨ (0x0A4 < a ∧ a < 0x0C0) ∨ (0x0CC < a ∧ a < 0x100) ∨ 0x300 ≤ a →
      a % 4 = 0 → s.registerAt a = 0#32)

/-- 10_state.md R30, 20_memory.md R81: what a READ returns does not depend on KEY, on the bytes in TB, or on the transient
registers. -/
def Obligations.KeyBufferAndTransientsAreNotReadable : Prop :=
  ∀ (s : State) (k : Vector Byte 16) (m : Memory) (d : Decoding) (a : BitVec 10),
    ({ s with key := k, tb := m, dec := d } : State).readWord a = s.readWord a

/-! ## FEED -/

/-- 40_accumulator.md R151: with room in the buffer, FEED completes: the byte is at index COUNT, every other entry of TB reads
as before, COUNT grows by 1, LAST_ARRIVAL is NOW, and nothing else changes. -/
def Obligations.FeedAppendsTheByte : Prop :=
  ∀ (s : State) (b : Byte), s.count.toNat < s.par.val.bufCap →
    ∃ t : State, exec (.feed b) s = .next t ∧
      t = { s with tb := t.tb, count := t.count, lastArrival := s.now } ∧
      t.count.toNat = s.count.toNat + 1 ∧ Memory.read t.tb s.count.toNat = some b ∧
      (∀ i : Nat, i ≠ s.count.toNat → Memory.read t.tb i = Memory.read s.tb i) ∧
      (Memory.wf s.tb = true → Memory.wf t.tb = true)

/-- 40_accumulator.md R153, 60_exceptions.md R384, R388: with COUNT = BUF_CAP the telegram is aborted with FRAMING BUFFER_OVERFLOW
(kind 1, sub-cause 1), the byte is dropped, and LAST_ARRIVAL is NOW. That the record decoder's registers are then empty is the
model's choice (log entry 2), and that the emptied buffer lists no entry is DEDUCED (log entry 12). -/
def Obligations.FeedIntoAFullBufferAborts : Prop :=
  ∀ (s : State) (b : Byte), s.count.toNat = s.par.val.bufCap →
    exec (.feed b) s = .next { s with
      lastArrival := s.now, tb := [], count := 0#32, result := ⟨2#2, 1#3, 1#8⟩, errorCount := s.errorCount + 1#32,
      irqPend := s.irqPend ||| 0b010#3, phase := .idle, dec := Decoding.empty }

/-- 40_accumulator.md R152, 30_encoding.md R108: a sequence of FEEDs that fits leaves the fed bytes in feed order after those
already in the buffer. -/
def Obligations.FeedsAccumulateInOrder : Prop :=
  ∀ (bs : Bytes) (s : State) (raw : Bytes), s.BufferSound → s.telegram = some raw →
    raw.length + bs.length ≤ s.par.val.bufCap →
    ∃ t : State, runEvents (feedsEvents bs) s = .next t ∧ t.telegram = some (raw ++ bs) ∧ t.BufferSound ∧
      t.count.toNat = raw.length + bs.length ∧ t = { s with tb := t.tb, count := t.count, lastArrival := t.lastArrival }

/-- 40_accumulator.md R154, R163, 70_reset_and_hazards.md R425, R426: a byte fed into a buffer with room joins the telegram there, also
when the timeout has elapsed and completion has not been tested; it restarts the inactivity interval, so elapsed is 0 and a
CHECK in the same tick changes nothing, whatever TIMEOUT is. -/
def Obligations.FeedJoinsTheTelegramAndRestartsTheInterval : Prop :=
  ∀ (s : State) (b : Byte) (raw : Bytes), s.BufferSound → s.count.toNat < s.par.val.bufCap → s.telegram = some raw →
    ∃ t : State, exec (.feed b) s = .next t ∧ t.telegram = some (raw ++ [b]) ∧ t.elapsed = 0#32 ∧ t.complete = false ∧
      exec .check t = .next t

/-- The model's two faults (log entry 9): a FEED above BUF_CAP, and a take, by CHECK or by an AUTO TICK, of an entry that holds
no value. Each happens there, an instruction or an event faults in no other case, none is ever refused, and a step inside a
decode always goes on. The spec gives neither fault an effect, and no run reaches either
(`Obligations.NoReachableStateStops`). -/
def Obligations.OnlyMissingEntriesFault : Prop :=
  (∀ (s : State) (b : Byte), s.par.val.bufCap < s.count.toNat → exec (.feed b) s = .fault .tbOutOfRange) ∧
  (∀ (s : State) (j : Nat), s.complete = true → j < s.count.toNat → Memory.read s.tb j = none →
    exec .check s = .fault .tbNoValue) ∧
  (∀ (s : State) (j : Nat), s.auto = 1#1 → s.advanceNow.complete = true → j < s.count.toNat → Memory.read s.tb j = none →
    takeEvent .tick s = .fault .tbNoValue) ∧
  (∀ (s : State) (i : Instr) (f : Fault), exec i s = .fault f →
    (f = .tbOutOfRange ∧ (∃ b : Byte, i = .feed b) ∧ s.par.val.bufCap < s.count.toNat) ∨
    (f = .tbNoValue ∧ i = .check ∧ s.complete = true ∧ ∃ j : Nat, j < s.count.toNat ∧ Memory.read s.tb j = none)) ∧
  (∀ (s : State) (e : Event) (f : Fault), takeEvent e s = .fault f →
    (f = .tbOutOfRange ∧ (∃ b : Byte, e.IsCommand (.feed b)) ∧ s.par.val.bufCap < s.count.toNat) ∨
    (f = .tbNoValue ∧ ((e.IsCommand .check ∧ s.complete = true) ∨
        (e = .tick ∧ s.auto = 1#1 ∧ s.advanceNow.complete = true)) ∧
      ∃ j : Nat, j < s.count.toNat ∧ Memory.read s.tb j = none)) ∧
  (∀ (s : State) (i : Instr) (e : Event) (r : Refusal), exec i s ≠ .refused r ∧ takeEvent e s ≠ .refused r) ∧
  (∀ s : State, s.phase ≠ .idle → ∃ t : State, step s = .next t)

/-! ## Completion, CHECK and TICK -/

/-- 40_accumulator.md R155, R156: elapsed is the wrapping difference, right for any true distance below 2^32, and the
completion test is strict and unsigned. -/
def Obligations.CompletionPredicate : Prop :=
  (∀ s : State, s.elapsed.toNat = (s.now.toNat + 2 ^ 32 - s.lastArrival.toNat) % 2 ^ 32) ∧
  (∀ (s : State) (n : Nat), n < 2 ^ 32 → s.now.toNat = (s.lastArrival.toNat + n) % 2 ^ 32 → s.elapsed.toNat = n) ∧
  (∀ s : State, s.complete = true ↔ s.count ≠ 0#32 ∧ s.elapsed.toNat > s.timeout.toNat)

/-- 40_accumulator.md R157, R160: CHECK completes in every sound state. Not complete: nothing changes. Complete: the buffer is
taken and decoded, and the outcome is the delivery of the decoded set or the abort with the failing check's cause. The
decoding is R160's stages in order, and the first stage to fail decides the cause (00_scope.md R13, 60_exceptions.md R387): the
reassembler's cause, else the envelope's, else the set or the cause of the record decoder on the plaintext. That the record
decoder's registers are empty after the event is the model's choice (log entry 2), and that the emptied buffer lists no entry
is DEDUCED (log entry 12). -/
def Obligations.CheckDecodesACompleteTelegram : Prop :=
  (∀ s : State, s.complete = false → exec .check s = .next s) ∧
  (∀ (s : State) (raw : Bytes) (ms : MeasurementSet), s.complete = true → s.telegram = some raw →
    telegramOutcome s.par.val s.key.toList s.keyLoaded raw = .ok ms →
    exec .check s = .next { s with
      tb := [], count := 0#32, out := writeOutputs ms, result := ⟨1#2, 0#3, 0#8⟩, deliverCount := s.deliverCount + 1#32,
      irqPend := s.irqPend ||| 0b001#3, phase := .idle, dec := Decoding.empty }) ∧
  (∀ (s : State) (raw : Bytes) (c : Cause), s.complete = true → s.telegram = some raw →
    telegramOutcome s.par.val s.key.toList s.keyLoaded raw = .error c →
    exec .check s = .next { s with
      tb := [], count := 0#32, result := ⟨2#2, c.kindCode, c.subCode⟩, errorCount := s.errorCount + 1#32,
      irqPend := s.irqPend ||| 0b010#3, phase := .idle, dec := Decoding.empty }) ∧
  (∀ s : State, s.BufferSound → ∃ raw : Bytes, s.telegram = some raw ∧ raw.length = s.count.toNat) ∧
  (∀ (p : LegalParams) (key raw : Bytes) (loaded : Bool) (c : Cause), reassemble p.val raw = .error c →
    telegramOutcome p.val key loaded raw = .error c) ∧
  (∀ (p : LegalParams) (key raw pb : Bytes) (loaded : Bool) (c : Cause), reassemble p.val raw = .ok pb →
    openEnvelope p.val key loaded pb = .error c → telegramOutcome p.val key loaded raw = .error c) ∧
  (∀ (p : LegalParams) (key raw pb pt : Bytes) (loaded : Bool), reassemble p.val raw = .ok pb →
    openEnvelope p.val key loaded pb = .ok pt → telegramOutcome p.val key loaded raw = decodeRecords p.val pt)

/-- 40_accumulator.md R161: after take_and_decode, COUNT is 0, exactly one of the two counters has grown by 1, RESULT describes
the outcome, and the engine is idle (in the model: its field phase, log entry 4). -/
def Obligations.EveryTakeEndsOneWay : Prop :=
  ∀ s t : State, s.takeAndDecode = .next t →
    t.count = 0#32 ∧ t.telegram = some [] ∧ t.phase = .idle ∧
    ((t.deliverCount = s.deliverCount + 1#32 ∧ t.errorCount = s.errorCount ∧ t.result = Result.ok) ∨
     (t.deliverCount = s.deliverCount ∧ t.errorCount = s.errorCount + 1#32 ∧ ∃ c : Cause, t.result = c.result))

/-- 40_accumulator.md R158: TICK advances NOW modulo 2^32; with AUTO = 0, or when the telegram is not complete at the new NOW,
it does nothing else; otherwise it does to the advanced state what CHECK does. -/
def Obligations.TickAdvancesNowThenTests : Prop :=
  (∀ s : State, (s.advanceNow).now.toNat = (s.now.toNat + 1) % 2 ^ 32) ∧
  (∀ s : State, s.auto = 0#1 ∨ (s.advanceNow).complete = false → takeEvent .tick s = .next { s with now := s.now + 1#32 }) ∧
  (∀ s : State, s.auto = 1#1 → takeEvent .tick s = exec .check { s with now := s.now + 1#32 })

/-- 40_accumulator.md R164: with AUTO = 1, a telegram whose last byte has just arrived stays in the buffer, untouched, for
TIMEOUT ticks, and is taken and decoded at exactly the tick after them; `telegramOutcome` is R160's stages, which
`Obligations.CheckDecodesACompleteTelegram` states. What that decode leaves in the decoder's registers and in the emptied buffer
is log entries 2 and 12. -/
def Obligations.AutoCompletesExactlyAfterTheTimeout : Prop :=
  ∀ (s : State) (raw : Bytes), s.auto = 1#1 → s.count ≠ 0#32 → s.lastArrival = s.now → s.telegram = some raw →
    (∀ n : Nat, n ≤ s.timeout.toNat →
      runEvents (waitEvents n) s = .next { s with now := s.now + BitVec.ofNat 32 n }) ∧
    runEvents (waitEvents (s.timeout.toNat + 1)) s =
      .next (({ s with now := s.now + BitVec.ofNat 32 (s.timeout.toNat + 1) } : State).discardBuffer.finish
        (telegramOutcome s.par.val s.key.toList s.keyLoaded raw))

/-! ## The abort, the delivery, RESET -/

/-- 60_exceptions.md R380 to R384: the kind and sub-cause codes of every cause. -/
def Obligations.AbortCodes : Prop :=
  [Cause.framingBufferOverflow, .framingTruncated, .framingBadStart, .framingLenMismatch, .framingBadStop, .framingHeaderShort,
    .lengthUnderflow, .lengthMismatch, .lengthTagShort, .cryptoNoKey, .cryptoTagMismatch, .structuralShort,
    .structuralBadMarker, .obisBadHeaderType, .obisBadHeaderLen, .obisBadMedium, .obisBadDataType, .obisTruncated,
    .obisTsShort, .envelopeTooShort, .envelopeBadCipher, .envelopeBadSystLen, .envelopeBadSecCtrl].map
      (fun c => (Result.word c.result).toNat) =
    [0x00010102, 0x00020102, 0x00030102, 0x00040102, 0x00050102, 0x00060102, 0x00010202, 0x00020202, 0x00030202, 0x00010302,
      0x00020302, 0x00010402, 0x00020402, 0x00010502, 0x00020502, 0x00030502, 0x00040502, 0x00050502, 0x00060502, 0x00010602,
      0x00020602, 0x00030602, 0x00040602]

/-- 60_exceptions.md R384, R385, R391: an abort empties the buffer, writes its report, and writes nothing else; RESULT reads
0x2 | (code << 8) | (SUB << 16) at 0x014; the next FEED starts a new telegram. That the discarded transient registers are then
empty is the model's choice (log entry 2), and that the emptied buffer lists no entry is DEDUCED (log entry 12). -/
def Obligations.AbortWritesOnlyItsReport : Prop :=
  ∀ (s : State) (c : Cause), ∃ t : State, s.abort c = t ∧
    t = { s with tb := [], count := 0#32, result := ⟨2#2, c.kindCode, c.subCode⟩, errorCount := s.errorCount + 1#32,
                 irqPend := s.irqPend ||| 0b010#3, phase := .idle, dec := Decoding.empty } ∧
    (t.readWord 5#10).toNat = 2 + c.kindCode.toNat * 2 ^ 8 + c.subCode.toNat * 2 ^ 16 ∧
    (∀ b : Byte, ∃ u : State, exec (.feed b) t = .next u ∧ u.telegram = some [b])

/-- 60_exceptions.md R386, R384: an aborted CHECK leaves the state before it but for the take and the writes of R384, RESULT among
them with the kind and sub-cause of some cause; an aborted AUTO TICK likewise, with its NOW increment. That the record
decoder's registers are then empty is the model's choice (log entry 2), and that the emptied buffer lists no entry is DEDUCED
(log entry 12). -/
def Obligations.AbortsArePrecise : Prop :=
  (∀ (s t : State), exec .check s = .next t → t.errorCount ≠ s.errorCount →
    ∃ c : Cause,
      t = { s with tb := [], count := 0#32, result := ⟨2#2, c.kindCode, c.subCode⟩, errorCount := s.errorCount + 1#32,
                   irqPend := s.irqPend ||| 0b010#3, phase := .idle, dec := Decoding.empty }) ∧
  (∀ (s t : State), takeEvent .tick s = .next t → t.errorCount ≠ s.errorCount →
    ∃ c : Cause,
      t = { s with now := s.now + 1#32, tb := [], count := 0#32, result := ⟨2#2, c.kindCode, c.subCode⟩,
                   errorCount := s.errorCount + 1#32, irqPend := s.irqPend ||| 0b010#3, phase := .idle,
                   dec := Decoding.empty })

/-- 45_host_and_sink.md R341: what a delivery writes to every element of the output group. The length of a text in a set is at
most 255 (44_record_decoder.md R304), so it fits its length register. -/
def Obligations.DeliveryReplacesEveryOutput : Prop :=
  ∀ ms : MeasurementSet,
    (∀ ct : CodeType, (writeOutputs ms).valid.getLsbD ct.index = ms.has ct) ∧
    (∀ k : Fin 13, ((writeOutputs ms).val[k], (writeOutputs ms).scale[k]) =
      match ms.num[k] with | some r => (r.val, r.scale) | none => (0#32, 0#2)) ∧
    (writeOutputs ms).ts = (match ms.ts with | some t => t | none => ⟨0#16, 0#8, 0#8, 0#8, 0#8, 0#8⟩) ∧
    ((ms.serial.getD []).length ≤ 255 → (writeOutputs ms).serialLen.toNat = (ms.serial.getD []).length) ∧
    (∀ i : Fin 255, (writeOutputs ms).serial[i] = (ms.serial.getD []).getD i 0#8) ∧
    ((ms.name.getD []).length ≤ 255 → (writeOutputs ms).nameLen.toNat = (ms.name.getD []).length) ∧
    (∀ i : Fin 255, (writeOutputs ms).name[i] = (ms.name.getD []).getD i 0#8)

/-- 10_state.md R43, 70_reset_and_hazards.md R420: what a RESET event leaves. The parameters stay (00_scope.md R8). KEY is not
stated: R43 says it holds no value (log entry 1). That a buffer whose entries hold no value lists none is the model's form of
R43 (log entry 13), and phase is the model's own field (log entry 4). -/
def Obligations.ResetSetsEveryElement : Prop :=
  ∀ s : State, ∃ t : State, takeEvent .reset s = .next t ∧ t.par = s.par ∧
    t.tb = [] ∧ t.count = 0#32 ∧ t.now = 0#32 ∧ t.lastArrival = 0#32 ∧ t.timeout.toNat = s.par.val.timeoutReset ∧
    t.auto = 0#1 ∧ t.keyMask = 0#16 ∧ t.keyLoaded = false ∧ t.irqEn = 0#3 ∧ t.irqPend = 0#3 ∧ t.result = ⟨0#2, 0#3, 0#8⟩ ∧
    t.deliverCount = 0#32 ∧ t.errorCount = 0#32 ∧ t.out.valid = 0#16 ∧
    (∀ k : Fin 13, t.out.val[k] = 0#32 ∧ t.out.scale[k] = 0#2) ∧ t.out.ts = ⟨0#16, 0#8, 0#8, 0#8, 0#8, 0#8⟩ ∧
    t.out.serialLen = 0#8 ∧ t.out.nameLen = 0#8 ∧ (∀ i : Fin 255, t.out.serial[i] = 0#8 ∧ t.out.name[i] = 0#8) ∧
    t.irq = false ∧ t.phase = .idle

/-- 70_reset_and_hazards.md R423: the boot sequence, from any state, loads the key and configures the engine; the optional
commands left out leave the reset values. -/
def Obligations.BootSequenceLoadsTheKey : Prop :=
  ∀ (s : State) (k : Vector Byte 16) (t : Option (BitVec 24)) (m : Option (BitVec 3)) (a : Option (BitVec 1)),
    ∃ u : State, runEvents (bootEvents k t m a) s = .next u ∧ u.key = k ∧ u.keyLoaded = true ∧
      u.timeout = t.getD (BitVec.ofNat 24 s.par.val.timeoutReset) ∧ u.irqEn = m.getD 0#3 ∧ u.auto = a.getD 0#1 ∧
      u.count = 0#32 ∧ u.result = ⟨0#2, 0#3, 0#8⟩ ∧ u.irqPend = 0#3

/-! ## Which events write which state -/

/-- 10_state.md R26, R27, R28: NOW is written by TICK (plus 1 modulo 2^32) and RESET only; LAST_ARRIVAL by every FEED, an
overflowing one too, with NOW, and RESET only; TIMEOUT by SETTO, with any value, and RESET only. -/
def Obligations.TimeRegistersHaveOnlyTheirWriters : Prop :=
  (∀ s t : State, takeEvent .tick s = .next t → t.now = s.now + 1#32) ∧
  (∀ (s t : State) (e : Event), takeEvent e s = .next t → e ≠ .tick → e ≠ .reset → t.now = s.now) ∧
  (∀ (s t : State) (e : Event) (b : Byte), takeEvent e s = .next t → e.IsCommand (.feed b) → t.lastArrival = s.now) ∧
  (∀ (s t : State) (e : Event), takeEvent e s = .next t → (∀ b : Byte, ¬ e.IsCommand (.feed b)) → e ≠ .reset →
    t.lastArrival = s.lastArrival) ∧
  (∀ (s t : State) (e : Event) (v : BitVec 24), takeEvent e s = .next t → e.IsCommand (.setto v) → t.timeout = v) ∧
  (∀ (s t : State) (e : Event), takeEvent e s = .next t → (∀ v : BitVec 24, ¬ e.IsCommand (.setto v)) → e ≠ .reset →
    t.timeout = s.timeout)

/-- 10_state.md R30, 70_reset_and_hazards.md R421: only KEYB and RESET write KEY or KEY_MASK, and only RESET clears a bit of
KEY_MASK. -/
def Obligations.OnlyKeybAndResetWriteTheKey : Prop :=
  (∀ (s t : State) (e : Event), takeEvent e s = .next t → (∀ (i : BitVec 4) (b : Byte), ¬ e.IsCommand (.keyb i b)) →
    e ≠ .reset → t.key = s.key ∧ t.keyMask = s.keyMask) ∧
  (∀ (s t : State) (e : Event), takeEvent e s = .next t → e ≠ .reset → t.keyMask &&& s.keyMask = s.keyMask)

/-- 10_state.md R32 to R34, 60_exceptions.md R390: an event that is no RESET has at most one outcome. With none, RESULT, both
counters and the outputs stay. With a delivery, the outputs are the delivered set's, DELIVER_COUNT grows by 1 and RESULT is
OK. With an abort, the outputs stay, ERROR_COUNT grows by 1 and RESULT names a cause. -/
def Obligations.EventHasAtMostOneOutcome : Prop :=
  ∀ (s t : State) (e : Event), takeEvent e s = .next t → e ≠ .reset →
    (t.out = s.out ∧ t.result = s.result ∧ t.deliverCount = s.deliverCount ∧ t.errorCount = s.errorCount) ∨
    (∃ ms : MeasurementSet, t.out = writeOutputs ms ∧ t.result = Result.ok ∧ t.deliverCount = s.deliverCount + 1#32 ∧
      t.errorCount = s.errorCount ∧ t.irqPend.getLsbD 0 = true) ∨
    (∃ c : Cause, t.out = s.out ∧ t.result = c.result ∧ t.deliverCount = s.deliverCount ∧
      t.errorCount = s.errorCount + 1#32 ∧ t.irqPend.getLsbD 1 = true)

/-- 00_scope.md R8: no step changes a parameter, a RESET's neither. -/
def Obligations.ParametersNeverChange : Prop := ∀ s t : State, step s = .next t → t.par = s.par

/-! ## The record decoder -/

/-- 44_record_decoder.md R301: with the four value bytes in PT, U32 completes: a numeric code-type gets the big-endian value
with scale code 0, any other and Unknown nothing; dlen is 4; nothing else of the engine changes. With a byte missing it aborts.
That the operation is one step of its own, which leaves the field phase at `advance`, is the model's choice (log entry 4). -/
def Obligations.U32DecodesAValue : Prop :=
  (∀ p : LegalParams, decodeTag p.val p.val.tagU32 = .ok .u32) ∧
  (∀ (s : State) (ct : CodeType) (h : ct.index < 13), s.dec.v + 4 ≤ s.dec.pt.length → s.dec.ct = some ct →
    ∃ x : Word, x.toNat = (s.dec.pt.getD s.dec.v 0#8).toNat * 2 ^ 24 + (s.dec.pt.getD (s.dec.v + 1) 0#8).toNat * 2 ^ 16 +
        (s.dec.pt.getD (s.dec.v + 2) 0#8).toNat * 2 ^ 8 + (s.dec.pt.getD (s.dec.v + 3) 0#8).toNat ∧
      exec .u32 s = .next { s with
        phase := .advance
        dec := { s.dec with dlen := 4, ms := { s.dec.ms with num := s.dec.ms.num.set ct.index (some ⟨x, 0#2⟩) h } } }) ∧
  (∀ s : State, s.dec.v + 4 ≤ s.dec.pt.length → (∀ ct : CodeType, s.dec.ct = some ct → 13 ≤ ct.index) →
    exec .u32 s = .next { s with phase := .advance, dec := { s.dec with dlen := 4 } }) ∧
  (∀ s : State, s.dec.pt.length < s.dec.v + 4 → exec .u32 s = .next (s.abort .obisTruncated))

/-- 44_record_decoder.md R302, R303: with the two value bytes in PT, U16 completes: a numeric code-type gets the big-endian
value with the scale code of the byte at v + 5 (1 for 0xFF, 2 for 0xFE, else 0, also where there is no such byte), any other
and Unknown nothing; dlen is 2; nothing else of the engine changes. With a byte missing it aborts. That the operation is one step
of its own, which leaves the field phase at `advance`, is the model's choice (log entry 4). -/
def Obligations.U16DecodesAScaledValue : Prop :=
  (∀ p : LegalParams, decodeTag p.val p.val.tagU16 = .ok .u16) ∧
  (∀ (s : State) (ct : CodeType) (h : ct.index < 13), s.dec.v + 2 ≤ s.dec.pt.length → s.dec.ct = some ct →
    ∃ (x : Word) (sc : BitVec 2),
      x.toNat = (s.dec.pt.getD s.dec.v 0#8).toNat * 2 ^ 8 + (s.dec.pt.getD (s.dec.v + 1) 0#8).toNat ∧
      sc = (if s.dec.pt.length ≤ s.dec.v + 5 then 0#2 else if s.dec.pt.getD (s.dec.v + 5) 0#8 = 0xFF#8 then 1#2
        else if s.dec.pt.getD (s.dec.v + 5) 0#8 = 0xFE#8 then 2#2 else 0#2) ∧
      exec .u16 s = .next { s with
        phase := .advance
        dec := { s.dec with dlen := 2, ms := { s.dec.ms with num := s.dec.ms.num.set ct.index (some ⟨x, sc⟩) h } } }) ∧
  (∀ s : State, s.dec.v + 2 ≤ s.dec.pt.length → (∀ ct : CodeType, s.dec.ct = some ct → 13 ≤ ct.index) →
    exec .u16 s = .next { s with phase := .advance, dec := { s.dec with dlen := 2 } }) ∧
  (∀ s : State, s.dec.pt.length < s.dec.v + 2 → exec .u16 s = .next (s.abort .obisTruncated))

/-- 44_record_decoder.md R304 to R306: OCTET with its length byte n and its n bytes in PT completes: a text code-type gets the
bytes as they are, a Timestamp of 8 bytes or more its six fields, any other code-type and Unknown nothing; dlen is n and the
cursor has moved past the length byte; nothing else of the engine changes. A Timestamp below 8 bytes aborts. With the length byte
or a value byte missing it aborts. That the length byte is read at cur, as R304's pseudocode has it, and not at v is DEDUCED (log
entry 18; the two are equal when a step has fetched the tag). That the operation is one step of its own, which leaves the field
phase at `advance`, is the model's choice (log entry 4). -/
def Obligations.OctetDecodesAString : Prop :=
  (∀ p : LegalParams, decodeTag p.val p.val.tagOctet = .ok .octet) ∧
  (∀ (s : State) (n : Byte), s.dec.pt[s.dec.cur]? = some n → s.dec.cur + 1 + n.toNat ≤ s.dec.pt.length →
    ∃ (val : Bytes) (d : Decoding), val = (s.dec.pt.drop (s.dec.cur + 1)).take n.toNat ∧ val.length = n.toNat ∧
      d = { s.dec with cur := s.dec.cur + 1, dlen := n.toNat } ∧
      (s.dec.ct = some .serialNumber → exec .octet s =
        .next { s with phase := .advance, dec := { d with ms := { d.ms with serial := some val } } }) ∧
      (s.dec.ct = some .deviceName → exec .octet s =
        .next { s with phase := .advance, dec := { d with ms := { d.ms with name := some val } } }) ∧
      (s.dec.ct = some .timestamp → 8 ≤ n.toNat → ∃ ts : Timestamp,
        ts.year.toNat = (val.getD 0 0#8).toNat * 2 ^ 8 + (val.getD 1 0#8).toNat ∧ ts.month = val.getD 2 0#8 ∧
        ts.day = val.getD 3 0#8 ∧ ts.hour = val.getD 5 0#8 ∧ ts.minute = val.getD 6 0#8 ∧ ts.second = val.getD 7 0#8 ∧
        exec .octet s = .next { s with phase := .advance, dec := { d with ms := { d.ms with ts := some ts } } }) ∧
      (s.dec.ct = some .timestamp → n.toNat < 8 → exec .octet s = .next (s.abort .obisTsShort)) ∧
      (s.dec.ct ≠ some .serialNumber → s.dec.ct ≠ some .deviceName → s.dec.ct ≠ some .timestamp →
        exec .octet s = .next { s with phase := .advance, dec := d })) ∧
  (∀ s : State, (∀ n : Byte, s.dec.pt[s.dec.cur]? = some n → s.dec.pt.length < s.dec.cur + 1 + n.toNat) →
    exec .octet s = .next (s.abort .obisTruncated))

/-- The three aborts at a data-type tag, in order (44_record_decoder.md R285, R286, R310, R311): no tag byte in PT is OBIS
TRUNCATED; a field A that selects no medium is BAD_MEDIUM, whatever the tag; then any tag but the three is BAD_DATA_TYPE. No
operation runs, and the measurements decoded so far are discarded. That the tag is one step of its own, from the field phase
at `tag`, is the model's choice (log entry 4), and so is what the discarded registers hold (log entry 2). -/
def Obligations.UnknownTagAborts : Prop :=
  (∀ s : State, s.phase = .tag → s.dec.pt[s.dec.cur]? = none → step s = .next (s.abort .obisTruncated)) ∧
  (∀ (s : State) (b : Byte), s.phase = .tag → s.dec.pt[s.dec.cur]? = some b → s.dec.code[0] ≠ s.par.val.medElec →
    s.dec.code[0] ≠ s.par.val.medAbstract → step s = .next (s.abort .obisBadMedium)) ∧
  (∀ (s : State) (b : Byte) (ct : Option CodeType), s.phase = .tag → s.dec.pt[s.dec.cur]? = some b →
    classify s.par.val s.dec.code = .ok ct → b ≠ s.par.val.tagU32 → b ≠ s.par.val.tagU16 → b ≠ s.par.val.tagOctet →
    step s = .next (s.abort .obisBadDataType))

/-- 44_record_decoder.md R282 to R284, R310: the checks at a record's start, in order, and the code bytes; the step there runs
them, goes on to the data-type tag, or aborts with the failing check's cause. That the header is one step of its own, from the
field phase at `header` to `tag`, is the model's choice (log entry 4). -/
def Obligations.RecordHeaderChecksInOrder : Prop :=
  (∀ s : State, s.phase = .header → step s =
    match recordHeader s.par.val s.dec with
    | .ok d => .next { s with phase := .tag, dec := d }
    | .error c => .next (s.abort c)) ∧
  (∀ (p : LegalParams) (d : Decoding), recordHeader p.val d =
    if d.pt.length ≤ d.cur then .error .obisTruncated
    else if d.pt.getD d.cur 0#8 ≠ p.val.tagOctet then .error .obisBadHeaderType
    else if d.pt.length ≤ d.cur + 1 then .error .obisTruncated
    else if d.pt.getD (d.cur + 1) 0#8 ≠ 6#8 then .error .obisBadHeaderLen
    else if d.pt.length < d.cur + 8 then .error .obisTruncated
    else .ok { d with
      cur := d.cur + 8
      code := #v[d.pt.getD (d.cur + 2) 0#8, d.pt.getD (d.cur + 3) 0#8, d.pt.getD (d.cur + 4) 0#8, d.pt.getD (d.cur + 5) 0#8,
        d.pt.getD (d.cur + 6) 0#8, d.pt.getD (d.cur + 7) 0#8] })

/-- 44_record_decoder.md R286, R287, 30_encoding.md R125: field A selects the medium or aborts; a row of the table for that medium
and the fields C and D gives the code-type, and without one it is Unknown. -/
def Obligations.ClassificationFollowsTheTable : Prop :=
  ∀ (p : LegalParams) (code : Vector Byte 6),
    (code[0] ≠ p.val.medElec → code[0] ≠ p.val.medAbstract → classify p.val code = .error .obisBadMedium) ∧
    (∀ r ∈ p.val.obisTable, code[0] = (match r.medium with | .electricity => p.val.medElec | .abstract => p.val.medAbstract) →
      code[2] = r.c → code[3] = r.d → classify p.val code = .ok (some r.codeType)) ∧
    (code[0] = p.val.medElec → (∀ r ∈ p.val.obisTable, ¬ (r.medium = .electricity ∧ r.c = code[2] ∧ r.d = code[3])) →
      classify p.val code = .ok none) ∧
    (code[0] = p.val.medAbstract → (∀ r ∈ p.val.obisTable, ¬ (r.medium = .abstract ∧ r.c = code[2] ∧ r.d = code[3])) →
      classify p.val code = .ok none)

/-- 44_record_decoder.md R307 to R309, R312: after a value the cursor passes the value and the two break bytes, and META_SKIP more
where the byte there is 0x0F; then another record follows iff the cursor is below PLEN, else the set is delivered. That this is
one step of its own, from the field phase at `advance`, is the model's choice (log entry 4). -/
def Obligations.AdvanceSkipsBreakAndMetadata : Prop :=
  ∀ (s : State) (c : Nat), s.phase = .advance →
    c = s.dec.cur + s.dec.dlen + 2 + (if s.dec.pt[s.dec.cur + s.dec.dlen + 2]? = some 0x0F#8 then s.par.val.metaSkip else 0) →
    (c < s.dec.pt.length → step s = .next { s with phase := .header, dec := { s.dec with cur := c } }) ∧
    (s.dec.pt.length ≤ c → step s = .next (s.deliver s.dec.ms))

/-- 44_record_decoder.md R314: every pass of the record loop raises the cursor by at least 11, so the loop ends. R313: a plaintext
that holds no record aborts. The middle clause is about the model's own count of passes (log entry 14): it is never used up. -/
def Obligations.RecordLoopEnds : Prop :=
  (∀ (p : LegalParams) (d d' : Decoding), decodeRecord p.val d = .ok d' → d.cur + 11 ≤ d'.cur ∧ d'.pt = d.pt) ∧
  (∀ (p : LegalParams) (d : Decoding) (n : Nat), d.pt.length < d.cur + n → 0 < n →
    recordLoop p.val n d = recordLoop p.val (n + 1) d) ∧
  (∀ (p : LegalParams) (pt : Bytes), pt.length ≤ p.val.decStart → decodeRecords p.val pt = .error .obisTruncated)

/-- The record decoder run one step at a time, each data-type tag fetched by the step and run by `exec`, ends as the decode
that CHECK and TICK run in one event (44_record_decoder.md R281, R312; log entry 4). -/
def Obligations.SteppedDecodeEqualsAtomicDecode : Prop :=
  ∀ (s : State) (pt : Bytes), ∃ n : Nat, n ≤ 3 * (pt.length + 1) ∧
    stepN n (s.setDecoding .header (startDecoding s.par.val pt)) = .next (s.finish (decodeRecords s.par.val pt))

/-! ## The reassembler -/

/-- 41_reassembler.md R183 to R189: the checks of one frame, in order. -/
def Obligations.FrameChecksInOrder : Prop :=
  ∀ (p : LegalParams) (raw : Bytes) (off : Nat), frameLength p.val raw off =
    if raw.length - off < 4 then .error .framingTruncated
    else if raw.getD off 0#8 ≠ p.val.mbusStart ∨ raw.getD (off + 3) 0#8 ≠ p.val.mbusStart then .error .framingBadStart
    else if raw.getD (off + 1) 0#8 ≠ raw.getD (off + 2) 0#8 then .error .framingLenMismatch
    else if raw.length - off < 4 + (raw.getD (off + 1) 0#8).toNat + p.val.mbusFooter then .error .framingTruncated
    else if raw.getD (off + 4 + (raw.getD (off + 1) 0#8).toNat + p.val.mbusFooter - 1) 0#8 ≠ p.val.mbusStop
      then .error .framingBadStop
    else if (raw.getD (off + 1) 0#8).toNat < p.val.mbusFullHdr - 4 then .error .framingHeaderShort
    else .ok (raw.getD (off + 1) 0#8).toNat

/-- 41_reassembler.md R182, R190, R191, R195: any number of valid frames, one or more, reassemble to their payloads in order; so a
payload cut into pieces gives the same PB as the single frame that carries all of it. Bytes after valid frames, or at the
start, that fail a frame's checks abort the whole with that check's cause. -/
def Obligations.ReassemblyJoinsThePayloads : Prop :=
  (∀ (p : LegalParams) (fs : List Frame), fs ≠ [] → (∀ f ∈ fs, f.Valid p.val) →
    reassemble p.val (fs.flatMap (Frame.bytes p.val)) = .ok (fs.flatMap Frame.payload)) ∧
  (∀ (p : LegalParams) (fs : List Frame) (f : Frame), fs ≠ [] → (∀ g ∈ fs, g.Valid p.val) → f.Valid p.val →
    fs.flatMap Frame.payload = f.payload →
    reassemble p.val (fs.flatMap (Frame.bytes p.val)) = reassemble p.val (f.bytes p.val)) ∧
  (∀ (p : LegalParams) (fs : List Frame) (rest : Bytes) (c : Cause), (∀ f ∈ fs, f.Valid p.val) → (rest ≠ [] ∨ fs = []) →
    frameLength p.val rest 0 = .error c → reassemble p.val (fs.flatMap (Frame.bytes p.val) ++ rest) = .error c)

/-! ## The envelope and the cipher -/

/-- 42_envelope.md R211 to R218: the header and length checks, in order, on unbounded integers. -/
def Obligations.EnvelopeChecksInOrder : Prop :=
  ∀ (p : LegalParams) (pb : Bytes) (m h : Nat),
    (pb.getD 10 0#8 = p.val.dlmsLenExt → m = (pb.getD 11 0#8).toNat * 256 + (pb.getD 12 0#8).toNat ∧ h = 2) →
    (pb.getD 10 0#8 ≠ p.val.dlmsLenExt → m = (pb.getD 10 0#8).toNat ∧ h = 0) →
    parseHeader p.val pb =
      if pb.length < 16 then .error .envelopeTooShort
      else if pb.getD 0 0#8 ≠ p.val.dlmsCipherId then .error .envelopeBadCipher
      else if pb.getD 1 0#8 ≠ 8#8 then .error .envelopeBadSystLen
      else if m < p.val.dlmsLenCorr then .error .lengthUnderflow
      else if (pb.length : Int) - 16 - h ≠ m - p.val.dlmsLenCorr then .error .lengthMismatch
      else if m - p.val.dlmsLenCorr < p.val.tagLen then .error .lengthTagShort
      else if pb.getD (11 + h) 0#8 ≠ p.val.dlmsSecCtrl then .error .envelopeBadSecCtrl
      else .ok ⟨h, m - p.val.dlmsLenCorr - p.val.tagLen⟩

/-- 42_envelope.md R219 to R222, R226, R227: after the header checks, no key aborts; then the ciphertext, tag and nonce at their
offsets go to the decryption; then the plaintext's markers are checked. -/
def Obligations.EnvelopeDecryptsThenChecksMarkers : Prop :=
  ∀ (p : LegalParams) (key : Bytes) (loaded : Bool) (pb iv c t : Bytes) (hi : HeaderInfo), parseHeader p.val pb = .ok hi →
    iv = (pb.drop 2).take 8 ++ (pb.drop (12 + hi.h)).take 4 → c = (pb.drop (16 + hi.h)).take hi.clen →
    t = pb.drop (16 + hi.h + hi.clen) →
    iv.length = 12 ∧ c.length = hi.clen ∧ t.length = p.val.tagLen ∧
    openEnvelope p.val key loaded pb =
      if loaded = false then .error .cryptoNoKey
      else match gcmAD key iv c t p.val.tagLen with
        | none => .error .cryptoTagMismatch
        | some pt =>
          if pt.length < 6 then .error .structuralShort
          else if pt.getD 0 0#8 ≠ p.val.ptMark0 ∨ pt.getD 5 0#8 ≠ p.val.ptMark5 then .error .structuralBadMarker
          else .ok pt

/-- 43_aes_gcm.md R242, R243: the S-box table is the S-box formula, and the inverse it is built on is the field's. -/
def Obligations.SboxTableIsItsFormula : Prop :=
  ∀ x : Byte, sbox x = sboxFormula x ∧ (x ≠ 0#8 → gmul x (ginv x) = 1#8) ∧ (x = 0#8 → ginv x = 0#8)

/-- 43_aes_gcm.md R255, R257: what a sender encrypts by GCTR from inc32(J0) and tags, GCM_AD under the same key and IV decrypts to
the sender's plaintext, whatever the plaintext's length and the tag's length. -/
def Obligations.GcmDecryptsWhatASenderEncrypts : Prop :=
  ∀ (k iv pt c : Bytes) (n : Nat), k.length = 16 → c = gctr (keySchedule k) (inc32 (preCounter iv)) pt →
    gcmAD k iv c (gcmTag (keySchedule k) iv c n) n = some pt

/-- 43_aes_gcm.md R257, 42_envelope.md R222, R223 (its part about the tag): the plaintext has the ciphertext's length, and a tag that
differs in any way from the right one fails. -/
def Obligations.GcmKeepsLengthAndRejectsOtherTags : Prop :=
  ∀ (k iv c t pt : Bytes) (n : Nat), k.length = 16 → gcmAD k iv c t n = some pt →
    pt.length = c.length ∧ ∀ t' : Bytes, t' ≠ t → gcmAD k iv c t' n = none

/-! ## The Sink's functions and the host's protocol -/

/-- 45_host_and_sink.md R343, R344: the examples of the exact value and of the timestamp's string. -/
def Obligations.SinkExamples : Prop :=
  Reading.value ⟨2330#32, 1#2⟩ = 233 ∧ Reading.value ⟨123#32, 2#2⟩ = 123 / 100 ∧
  Reading.value ⟨4294967295#32, 0#2⟩ = 4294967295 ∧
  Timestamp.tsString ⟨2021#16, 10#8, 31#8, 14#8, 43#8, 30#8⟩ =
    ['2', '0', '2', '1', '-', '1', '0', '-', '3', '1', 'T', '1', '4', ':', '4', '3', ':', '3', '0', 'Z'] ∧
  Timestamp.tsString ⟨5#16, 1#8, 2#8, 3#8, 4#8, 5#8⟩ =
    ['0', '0', '0', '5', '-', '0', '1', '-', '0', '2', 'T', '0', '3', ':', '0', '4', ':', '0', '5', 'Z']

/-! ## The invariant -/

/-- The invariant holds right after RESET, over every legal parameter set (10_state.md R43). One of its clauses, that the record
decoder's registers are empty while no decode runs, is the model's choice (log entry 2): the spec gives them no value there. -/
def Obligations.InvariantHoldsAfterReset : Prop := ∀ p : LegalParams, (State.initial p).Inv

/-- Every step keeps the invariant: the buffer's cells are exactly 0 .. COUNT - 1 in canonical form and COUNT is at most BUF_CAP
(10_state.md R25); RESULT, the outputs and the working set never hold an encoding that no rule writes
(93_implementation_defined.md U4). The last clause, that between events the record decoder's registers are empty, is the
model's choice (log entry 2): 10_state.md R35 says that they hold no value there. -/
def Obligations.StepKeepsTheInvariant : Prop := ∀ s t : State, s.Inv → step s = .next t → t.Inv

/-- From every state that meets the invariant a step answers a next state; so no reachable state stops, from RESET, over every
legal parameter set and every sequence of presented events (60_exceptions.md R384, R391, R393: an abort and an illegal word both
go on). The invariant and the inbox are the model's (log entries 2, 6). -/
def Obligations.NoReachableStateStops : Prop :=
  (∀ s : State, s.Inv → s.StepSafe) ∧ (∀ s : State, Reachable s → s.StepSafe)
end

