-- ==== Sys2Proof/Laws/Memory.lean ====
section
/-! SUPPORT. The laws of the TelegramBuffer's memory: read after write, and that a write keeps the canonical form. -/

namespace Sys2Proof.Machine

@[simp] theorem Memory.read_nil (i : Nat) : Memory.read [] i = none := rfl

@[simp] theorem Memory.wf_nil : Memory.wf [] = true := rfl

/-- Reading the address written gives the byte written. -/
@[simp] theorem Memory.read_write_same (m : Memory) (i : Nat) (b : Byte) :
    Memory.read (Memory.write m i b) i = some b := by
  induction m with
  | nil => simp [Memory.write, Memory.read]
  | cons c m ih =>
    obtain ⟨a, x⟩ := c
    simp only [Memory.write]
    split
    · simp [Memory.read]
    · split
      · simp [Memory.read]
      · have h : a ≠ i := fun e => by omega
        simp [Memory.read, h, ih]

/-- A write leaves every other address alone. -/
theorem Memory.read_write_other (m : Memory) (i j : Nat) (b : Byte) (h : j ≠ i) :
    Memory.read (Memory.write m i b) j = Memory.read m j := by
  induction m with
  | nil => simp [Memory.write, Memory.read, Ne.symm h]
  | cons c m ih =>
    obtain ⟨a, x⟩ := c
    simp only [Memory.write]
    split
    · simp [Memory.read, Ne.symm h]
    · split
      · next e => subst e; simp [Memory.read, Ne.symm h]
      · simp [Memory.read, ih]

/-- The canonical form of a list with a first and a second cell. -/
theorem Memory.wf_cons_cons (a b : Nat) (x y : Byte) (m : Memory) :
    Memory.wf ((a, x) :: (b, y) :: m) = true ↔ a < b ∧ Memory.wf ((b, y) :: m) = true := by
  simp [Memory.wf]

/-- The first cell of a write's result is at the address written or at the old first address. -/
theorem Memory.write_head (m : Memory) (i : Nat) (b : Byte) :
    ∃ a x m', Memory.write m i b = (a, x) :: m' ∧ (a = i ∨ ∃ y m'', m = (a, y) :: m'') := by
  cases m with
  | nil => exact ⟨i, b, [], rfl, .inl rfl⟩
  | cons c m =>
    obtain ⟨a, x⟩ := c
    simp only [Memory.write]
    split
    · exact ⟨i, b, _, rfl, .inl rfl⟩
    · split
      · exact ⟨i, b, _, rfl, .inl rfl⟩
      · exact ⟨a, x, _, rfl, .inr ⟨x, m, rfl⟩⟩

/-- A write keeps the canonical form. -/
theorem Memory.wf_write (m : Memory) (i : Nat) (b : Byte) (h : Memory.wf m = true) :
    Memory.wf (Memory.write m i b) = true := by
  induction m with
  | nil => rfl
  | cons c m ih =>
    obtain ⟨a, x⟩ := c
    have htail : Memory.wf m = true := by
      cases m with
      | nil => rfl
      | cons c' m' => obtain ⟨a', y⟩ := c'; exact ((Memory.wf_cons_cons a a' x y m').1 h).2
    simp only [Memory.write]
    split
    · next hlt => exact (Memory.wf_cons_cons i a b x m).2 ⟨hlt, h⟩
    · split
      · next e =>
        subst e
        cases m with
        | nil => rfl
        | cons c' m' =>
          obtain ⟨a', y⟩ := c'
          exact (Memory.wf_cons_cons i a' b y m').2 ((Memory.wf_cons_cons i a' x y m').1 h)
      · next h1 h2 =>
        obtain ⟨a', x', m', e, hor⟩ := Memory.write_head m i b
        have ih' := ih htail
        rw [e] at ih' ⊢
        refine (Memory.wf_cons_cons a a' x x' m').2 ⟨?_, ih'⟩
        rcases hor with rfl | ⟨y, m'', rfl⟩
        · omega
        · exact ((Memory.wf_cons_cons a a' x y m'').1 h).1

/-- The memory of the state after RESET is in canonical form. -/
theorem Memory.wf_initial (p : LegalParams) : Memory.wf (State.initial p).tb = true := rfl

/-- Writing just past the last of the entries 0 .. n - 1 lists the entries 0 .. n. -/
theorem Memory.map_fst_write_append (m : Memory) (l n : Nat) (b : Byte) (h : m.map Prod.fst = List.range' l n) :
    (Memory.write m (l + n) b).map Prod.fst = List.range' l (n + 1) := by
  induction n generalizing m l with
  | zero =>
    have : m = [] := by cases m <;> simp_all [List.range']
    subst this
    simp [Memory.write, List.range']
  | succ n ih =>
    cases m with
    | nil => simp [List.range'] at h
    | cons c m =>
      obtain ⟨a, x⟩ := c
      simp only [List.map_cons, List.range'_succ, List.cons.injEq] at h
      obtain ⟨rfl, h⟩ := h
      have e : a + (n + 1) = (a + 1) + n := by omega
      simp only [Memory.write]
      rw [if_neg (by omega), if_neg (by omega), e, List.map_cons, ih m (a + 1) h]
      simp [List.range'_succ]

/-- An address that is not listed holds no value. -/
theorem Memory.read_none_of_not_mem (m : Memory) (i : Nat) (h : i ∉ m.map Prod.fst) : Memory.read m i = none := by
  induction m with
  | nil => rfl
  | cons c m ih =>
    obtain ⟨a, x⟩ := c
    simp only [List.map_cons, List.mem_cons, not_or] at h
    simp [Memory.read, Ne.symm h.1, ih h.2]

/-- An address that is listed holds a value. -/
theorem Memory.read_some_of_mem (m : Memory) (i : Nat) (h : i ∈ m.map Prod.fst) : ∃ b, Memory.read m i = some b := by
  induction m with
  | nil => simp at h
  | cons c m ih =>
    obtain ⟨a, x⟩ := c
    by_cases e : a = i
    · exact ⟨x, by simp [Memory.read, e]⟩
    · have : i ∈ m.map Prod.fst := by
        rcases List.mem_cons.1 h with h | h
        · exact absurd h.symm e
        · exact h
      obtain ⟨b, hb⟩ := ih this
      exact ⟨b, by simp [Memory.read, e, hb]⟩

/-- A range read succeeds when every entry of the range holds a value. -/
theorem Memory.readRange_some (m : Memory) (a n : Nat) (h : ∀ i, a ≤ i → i < a + n → ∃ b, Memory.read m i = some b) :
    ∃ bs, Memory.readRange m a n = some bs := by
  induction n generalizing a with
  | zero => exact ⟨[], rfl⟩
  | succ n ih =>
    obtain ⟨b, hb⟩ := h a (by omega) (by omega)
    obtain ⟨bs, hbs⟩ := ih (a + 1) fun i h1 h2 => h i (by omega) (by omega)
    exact ⟨b :: bs, by simp [Memory.readRange, hb, hbs]⟩

/-- A range read gives nothing exactly when some entry of the range holds no value. -/
theorem Memory.readRange_eq_none (m : Memory) (a n : Nat) :
    Memory.readRange m a n = none ↔ ∃ i, a ≤ i ∧ i < a + n ∧ Memory.read m i = none := by
  induction n generalizing a with
  | zero => simp only [Memory.readRange, reduceCtorEq, false_iff]; rintro ⟨i, h1, h2, -⟩; omega
  | succ n ih =>
    unfold Memory.readRange
    cases h : Memory.read m a with
    | none => simp only [true_iff]; exact ⟨a, le_rfl, by omega, h⟩
    | some b =>
      have tail : (∃ i, a ≤ i ∧ i < a + (n + 1) ∧ Memory.read m i = none) ↔
          ∃ i, a + 1 ≤ i ∧ i < a + 1 + n ∧ Memory.read m i = none := by
        refine ⟨fun ⟨i, h1, h2, h3⟩ => ⟨i, ?_, by omega, h3⟩, fun ⟨i, h1, h2, h3⟩ => ⟨i, by omega, by omega, h3⟩⟩
        rcases Nat.lt_or_eq_of_le h1 with h4 | rfl
        · omega
        · rw [h] at h3; cases h3
      rw [tail, ← ih]
      cases Memory.readRange m (a + 1) n <;> simp

/-- A range read gives as many bytes as it was asked for. -/
theorem Memory.readRange_length (m : Memory) (a n : Nat) (bs : Bytes) (h : Memory.readRange m a n = some bs) :
    bs.length = n := by
  induction n generalizing a bs with
  | zero => simp [Memory.readRange] at h; simp [← h]
  | succ n ih =>
    simp only [Memory.readRange] at h
    split at h
    · cases h
    · split at h
      · cases h
      · next hbs => cases h; simp [ih _ _ hbs]

/-- A write outside the range does not change what the range reads. -/
theorem Memory.readRange_write (m : Memory) (a n i : Nat) (b : Byte) (h : i < a ∨ a + n ≤ i) :
    Memory.readRange (Memory.write m i b) a n = Memory.readRange m a n := by
  induction n generalizing a with
  | zero => rfl
  | succ n ih =>
    simp only [Memory.readRange]
    rw [Memory.read_write_other m i a b (by omega), ih (a + 1) (by omega)]

/-- A range read, one entry longer. -/
theorem Memory.readRange_succ_last (m : Memory) (a n : Nat) (bs : Bytes) (b : Byte)
    (h : Memory.readRange m a n = some bs) (hb : Memory.read m (a + n) = some b) :
    Memory.readRange m a (n + 1) = some (bs ++ [b]) := by
  induction n generalizing a bs with
  | zero =>
    simp only [Memory.readRange, Option.some.injEq] at h
    subst h
    simp only [Nat.add_zero] at hb
    simp [Memory.readRange, hb]
  | succ n ih =>
    rw [Memory.readRange] at h ⊢
    split at h
    · cases h
    · next x hx =>
      split at h
      · cases h
      · next xs hxs =>
        cases h
        have := ih (a + 1) xs hxs (by rw [← hb]; congr 1; omega)
        simp [this]

end Sys2Proof.Machine
end

