-- ==== Sys2Proof/Laws/State.lean ====
section
/-! SUPPORT. The fields of State under each named update: one lemma per field per update, each true by definition. -/

namespace Sys2Proof.Machine

@[simp] theorem State.discardBuffer_par (s : State) : (s.discardBuffer).par = s.par := rfl
@[simp] theorem State.discardBuffer_tb (s : State) : (s.discardBuffer).tb = [] := rfl
@[simp] theorem State.discardBuffer_count (s : State) : (s.discardBuffer).count = 0#32 := rfl
@[simp] theorem State.discardBuffer_now (s : State) : (s.discardBuffer).now = s.now := rfl
@[simp] theorem State.discardBuffer_lastArrival (s : State) : (s.discardBuffer).lastArrival = s.lastArrival := rfl
@[simp] theorem State.discardBuffer_timeout (s : State) : (s.discardBuffer).timeout = s.timeout := rfl
@[simp] theorem State.discardBuffer_auto (s : State) : (s.discardBuffer).auto = s.auto := rfl
@[simp] theorem State.discardBuffer_key (s : State) : (s.discardBuffer).key = s.key := rfl
@[simp] theorem State.discardBuffer_keyMask (s : State) : (s.discardBuffer).keyMask = s.keyMask := rfl
@[simp] theorem State.discardBuffer_irqPend (s : State) : (s.discardBuffer).irqPend = s.irqPend := rfl
@[simp] theorem State.discardBuffer_irqEn (s : State) : (s.discardBuffer).irqEn = s.irqEn := rfl
@[simp] theorem State.discardBuffer_result (s : State) : (s.discardBuffer).result = s.result := rfl
@[simp] theorem State.discardBuffer_deliverCount (s : State) : (s.discardBuffer).deliverCount = s.deliverCount := rfl
@[simp] theorem State.discardBuffer_errorCount (s : State) : (s.discardBuffer).errorCount = s.errorCount := rfl
@[simp] theorem State.discardBuffer_out (s : State) : (s.discardBuffer).out = s.out := rfl
@[simp] theorem State.discardBuffer_rdData (s : State) : (s.discardBuffer).rdData = s.rdData := rfl
@[simp] theorem State.discardBuffer_inbox (s : State) : (s.discardBuffer).inbox = s.inbox := rfl
@[simp] theorem State.discardBuffer_phase (s : State) : (s.discardBuffer).phase = s.phase := rfl
@[simp] theorem State.discardBuffer_dec (s : State) : (s.discardBuffer).dec = s.dec := rfl

@[simp] theorem State.appendByte_par (s : State) (b : Byte) : (s.appendByte b).par = s.par := rfl
@[simp] theorem State.appendByte_tb (s : State) (b : Byte) : (s.appendByte b).tb = Memory.write s.tb s.count.toNat b := rfl
@[simp] theorem State.appendByte_count (s : State) (b : Byte) : (s.appendByte b).count = s.count + 1#32 := rfl
@[simp] theorem State.appendByte_now (s : State) (b : Byte) : (s.appendByte b).now = s.now := rfl
@[simp] theorem State.appendByte_lastArrival (s : State) (b : Byte) : (s.appendByte b).lastArrival = s.lastArrival := rfl
@[simp] theorem State.appendByte_timeout (s : State) (b : Byte) : (s.appendByte b).timeout = s.timeout := rfl
@[simp] theorem State.appendByte_auto (s : State) (b : Byte) : (s.appendByte b).auto = s.auto := rfl
@[simp] theorem State.appendByte_key (s : State) (b : Byte) : (s.appendByte b).key = s.key := rfl
@[simp] theorem State.appendByte_keyMask (s : State) (b : Byte) : (s.appendByte b).keyMask = s.keyMask := rfl
@[simp] theorem State.appendByte_irqPend (s : State) (b : Byte) : (s.appendByte b).irqPend = s.irqPend := rfl
@[simp] theorem State.appendByte_irqEn (s : State) (b : Byte) : (s.appendByte b).irqEn = s.irqEn := rfl
@[simp] theorem State.appendByte_result (s : State) (b : Byte) : (s.appendByte b).result = s.result := rfl
@[simp] theorem State.appendByte_deliverCount (s : State) (b : Byte) : (s.appendByte b).deliverCount = s.deliverCount := rfl
@[simp] theorem State.appendByte_errorCount (s : State) (b : Byte) : (s.appendByte b).errorCount = s.errorCount := rfl
@[simp] theorem State.appendByte_out (s : State) (b : Byte) : (s.appendByte b).out = s.out := rfl
@[simp] theorem State.appendByte_rdData (s : State) (b : Byte) : (s.appendByte b).rdData = s.rdData := rfl
@[simp] theorem State.appendByte_inbox (s : State) (b : Byte) : (s.appendByte b).inbox = s.inbox := rfl
@[simp] theorem State.appendByte_phase (s : State) (b : Byte) : (s.appendByte b).phase = s.phase := rfl
@[simp] theorem State.appendByte_dec (s : State) (b : Byte) : (s.appendByte b).dec = s.dec := rfl

@[simp] theorem State.markArrival_par (s : State) : (s.markArrival).par = s.par := rfl
@[simp] theorem State.markArrival_tb (s : State) : (s.markArrival).tb = s.tb := rfl
@[simp] theorem State.markArrival_count (s : State) : (s.markArrival).count = s.count := rfl
@[simp] theorem State.markArrival_now (s : State) : (s.markArrival).now = s.now := rfl
@[simp] theorem State.markArrival_lastArrival (s : State) : (s.markArrival).lastArrival = s.now := rfl
@[simp] theorem State.markArrival_timeout (s : State) : (s.markArrival).timeout = s.timeout := rfl
@[simp] theorem State.markArrival_auto (s : State) : (s.markArrival).auto = s.auto := rfl
@[simp] theorem State.markArrival_key (s : State) : (s.markArrival).key = s.key := rfl
@[simp] theorem State.markArrival_keyMask (s : State) : (s.markArrival).keyMask = s.keyMask := rfl
@[simp] theorem State.markArrival_irqPend (s : State) : (s.markArrival).irqPend = s.irqPend := rfl
@[simp] theorem State.markArrival_irqEn (s : State) : (s.markArrival).irqEn = s.irqEn := rfl
@[simp] theorem State.markArrival_result (s : State) : (s.markArrival).result = s.result := rfl
@[simp] theorem State.markArrival_deliverCount (s : State) : (s.markArrival).deliverCount = s.deliverCount := rfl
@[simp] theorem State.markArrival_errorCount (s : State) : (s.markArrival).errorCount = s.errorCount := rfl
@[simp] theorem State.markArrival_out (s : State) : (s.markArrival).out = s.out := rfl
@[simp] theorem State.markArrival_rdData (s : State) : (s.markArrival).rdData = s.rdData := rfl
@[simp] theorem State.markArrival_inbox (s : State) : (s.markArrival).inbox = s.inbox := rfl
@[simp] theorem State.markArrival_phase (s : State) : (s.markArrival).phase = s.phase := rfl
@[simp] theorem State.markArrival_dec (s : State) : (s.markArrival).dec = s.dec := rfl

@[simp] theorem State.advanceNow_par (s : State) : (s.advanceNow).par = s.par := rfl
@[simp] theorem State.advanceNow_tb (s : State) : (s.advanceNow).tb = s.tb := rfl
@[simp] theorem State.advanceNow_count (s : State) : (s.advanceNow).count = s.count := rfl
@[simp] theorem State.advanceNow_now (s : State) : (s.advanceNow).now = s.now + 1#32 := rfl
@[simp] theorem State.advanceNow_lastArrival (s : State) : (s.advanceNow).lastArrival = s.lastArrival := rfl
@[simp] theorem State.advanceNow_timeout (s : State) : (s.advanceNow).timeout = s.timeout := rfl
@[simp] theorem State.advanceNow_auto (s : State) : (s.advanceNow).auto = s.auto := rfl
@[simp] theorem State.advanceNow_key (s : State) : (s.advanceNow).key = s.key := rfl
@[simp] theorem State.advanceNow_keyMask (s : State) : (s.advanceNow).keyMask = s.keyMask := rfl
@[simp] theorem State.advanceNow_irqPend (s : State) : (s.advanceNow).irqPend = s.irqPend := rfl
@[simp] theorem State.advanceNow_irqEn (s : State) : (s.advanceNow).irqEn = s.irqEn := rfl
@[simp] theorem State.advanceNow_result (s : State) : (s.advanceNow).result = s.result := rfl
@[simp] theorem State.advanceNow_deliverCount (s : State) : (s.advanceNow).deliverCount = s.deliverCount := rfl
@[simp] theorem State.advanceNow_errorCount (s : State) : (s.advanceNow).errorCount = s.errorCount := rfl
@[simp] theorem State.advanceNow_out (s : State) : (s.advanceNow).out = s.out := rfl
@[simp] theorem State.advanceNow_rdData (s : State) : (s.advanceNow).rdData = s.rdData := rfl
@[simp] theorem State.advanceNow_inbox (s : State) : (s.advanceNow).inbox = s.inbox := rfl
@[simp] theorem State.advanceNow_phase (s : State) : (s.advanceNow).phase = s.phase := rfl
@[simp] theorem State.advanceNow_dec (s : State) : (s.advanceNow).dec = s.dec := rfl

@[simp] theorem State.writeKey_par (s : State) (i : BitVec 4) (b : Byte) : (s.writeKey i b).par = s.par := rfl
@[simp] theorem State.writeKey_tb (s : State) (i : BitVec 4) (b : Byte) : (s.writeKey i b).tb = s.tb := rfl
@[simp] theorem State.writeKey_count (s : State) (i : BitVec 4) (b : Byte) : (s.writeKey i b).count = s.count := rfl
@[simp] theorem State.writeKey_now (s : State) (i : BitVec 4) (b : Byte) : (s.writeKey i b).now = s.now := rfl
@[simp] theorem State.writeKey_lastArrival (s : State) (i : BitVec 4) (b : Byte) : (s.writeKey i b).lastArrival = s.lastArrival := rfl
@[simp] theorem State.writeKey_timeout (s : State) (i : BitVec 4) (b : Byte) : (s.writeKey i b).timeout = s.timeout := rfl
@[simp] theorem State.writeKey_auto (s : State) (i : BitVec 4) (b : Byte) : (s.writeKey i b).auto = s.auto := rfl
@[simp] theorem State.writeKey_key (s : State) (i : BitVec 4) (b : Byte) : (s.writeKey i b).key = s.key.set i.toNat b i.isLt := rfl
@[simp] theorem State.writeKey_keyMask (s : State) (i : BitVec 4) (b : Byte) : (s.writeKey i b).keyMask = s.keyMask ||| (1#16 <<< i.toNat) := rfl
@[simp] theorem State.writeKey_irqPend (s : State) (i : BitVec 4) (b : Byte) : (s.writeKey i b).irqPend = s.irqPend := rfl
@[simp] theorem State.writeKey_irqEn (s : State) (i : BitVec 4) (b : Byte) : (s.writeKey i b).irqEn = s.irqEn := rfl
@[simp] theorem State.writeKey_result (s : State) (i : BitVec 4) (b : Byte) : (s.writeKey i b).result = s.result := rfl
@[simp] theorem State.writeKey_deliverCount (s : State) (i : BitVec 4) (b : Byte) : (s.writeKey i b).deliverCount = s.deliverCount := rfl
@[simp] theorem State.writeKey_errorCount (s : State) (i : BitVec 4) (b : Byte) : (s.writeKey i b).errorCount = s.errorCount := rfl
@[simp] theorem State.writeKey_out (s : State) (i : BitVec 4) (b : Byte) : (s.writeKey i b).out = s.out := rfl
@[simp] theorem State.writeKey_rdData (s : State) (i : BitVec 4) (b : Byte) : (s.writeKey i b).rdData = s.rdData := rfl
@[simp] theorem State.writeKey_inbox (s : State) (i : BitVec 4) (b : Byte) : (s.writeKey i b).inbox = s.inbox := rfl
@[simp] theorem State.writeKey_phase (s : State) (i : BitVec 4) (b : Byte) : (s.writeKey i b).phase = s.phase := rfl
@[simp] theorem State.writeKey_dec (s : State) (i : BitVec 4) (b : Byte) : (s.writeKey i b).dec = s.dec := rfl

@[simp] theorem State.setTimeout_par (s : State) (t : BitVec 24) : (s.setTimeout t).par = s.par := rfl
@[simp] theorem State.setTimeout_tb (s : State) (t : BitVec 24) : (s.setTimeout t).tb = s.tb := rfl
@[simp] theorem State.setTimeout_count (s : State) (t : BitVec 24) : (s.setTimeout t).count = s.count := rfl
@[simp] theorem State.setTimeout_now (s : State) (t : BitVec 24) : (s.setTimeout t).now = s.now := rfl
@[simp] theorem State.setTimeout_lastArrival (s : State) (t : BitVec 24) : (s.setTimeout t).lastArrival = s.lastArrival := rfl
@[simp] theorem State.setTimeout_timeout (s : State) (t : BitVec 24) : (s.setTimeout t).timeout = t := rfl
@[simp] theorem State.setTimeout_auto (s : State) (t : BitVec 24) : (s.setTimeout t).auto = s.auto := rfl
@[simp] theorem State.setTimeout_key (s : State) (t : BitVec 24) : (s.setTimeout t).key = s.key := rfl
@[simp] theorem State.setTimeout_keyMask (s : State) (t : BitVec 24) : (s.setTimeout t).keyMask = s.keyMask := rfl
@[simp] theorem State.setTimeout_irqPend (s : State) (t : BitVec 24) : (s.setTimeout t).irqPend = s.irqPend := rfl
@[simp] theorem State.setTimeout_irqEn (s : State) (t : BitVec 24) : (s.setTimeout t).irqEn = s.irqEn := rfl
@[simp] theorem State.setTimeout_result (s : State) (t : BitVec 24) : (s.setTimeout t).result = s.result := rfl
@[simp] theorem State.setTimeout_deliverCount (s : State) (t : BitVec 24) : (s.setTimeout t).deliverCount = s.deliverCount := rfl
@[simp] theorem State.setTimeout_errorCount (s : State) (t : BitVec 24) : (s.setTimeout t).errorCount = s.errorCount := rfl
@[simp] theorem State.setTimeout_out (s : State) (t : BitVec 24) : (s.setTimeout t).out = s.out := rfl
@[simp] theorem State.setTimeout_rdData (s : State) (t : BitVec 24) : (s.setTimeout t).rdData = s.rdData := rfl
@[simp] theorem State.setTimeout_inbox (s : State) (t : BitVec 24) : (s.setTimeout t).inbox = s.inbox := rfl
@[simp] theorem State.setTimeout_phase (s : State) (t : BitVec 24) : (s.setTimeout t).phase = s.phase := rfl
@[simp] theorem State.setTimeout_dec (s : State) (t : BitVec 24) : (s.setTimeout t).dec = s.dec := rfl

@[simp] theorem State.setAuto_par (s : State) (a : BitVec 1) : (s.setAuto a).par = s.par := rfl
@[simp] theorem State.setAuto_tb (s : State) (a : BitVec 1) : (s.setAuto a).tb = s.tb := rfl
@[simp] theorem State.setAuto_count (s : State) (a : BitVec 1) : (s.setAuto a).count = s.count := rfl
@[simp] theorem State.setAuto_now (s : State) (a : BitVec 1) : (s.setAuto a).now = s.now := rfl
@[simp] theorem State.setAuto_lastArrival (s : State) (a : BitVec 1) : (s.setAuto a).lastArrival = s.lastArrival := rfl
@[simp] theorem State.setAuto_timeout (s : State) (a : BitVec 1) : (s.setAuto a).timeout = s.timeout := rfl
@[simp] theorem State.setAuto_auto (s : State) (a : BitVec 1) : (s.setAuto a).auto = a := rfl
@[simp] theorem State.setAuto_key (s : State) (a : BitVec 1) : (s.setAuto a).key = s.key := rfl
@[simp] theorem State.setAuto_keyMask (s : State) (a : BitVec 1) : (s.setAuto a).keyMask = s.keyMask := rfl
@[simp] theorem State.setAuto_irqPend (s : State) (a : BitVec 1) : (s.setAuto a).irqPend = s.irqPend := rfl
@[simp] theorem State.setAuto_irqEn (s : State) (a : BitVec 1) : (s.setAuto a).irqEn = s.irqEn := rfl
@[simp] theorem State.setAuto_result (s : State) (a : BitVec 1) : (s.setAuto a).result = s.result := rfl
@[simp] theorem State.setAuto_deliverCount (s : State) (a : BitVec 1) : (s.setAuto a).deliverCount = s.deliverCount := rfl
@[simp] theorem State.setAuto_errorCount (s : State) (a : BitVec 1) : (s.setAuto a).errorCount = s.errorCount := rfl
@[simp] theorem State.setAuto_out (s : State) (a : BitVec 1) : (s.setAuto a).out = s.out := rfl
@[simp] theorem State.setAuto_rdData (s : State) (a : BitVec 1) : (s.setAuto a).rdData = s.rdData := rfl
@[simp] theorem State.setAuto_inbox (s : State) (a : BitVec 1) : (s.setAuto a).inbox = s.inbox := rfl
@[simp] theorem State.setAuto_phase (s : State) (a : BitVec 1) : (s.setAuto a).phase = s.phase := rfl
@[simp] theorem State.setAuto_dec (s : State) (a : BitVec 1) : (s.setAuto a).dec = s.dec := rfl

@[simp] theorem State.setIrqEn_par (s : State) (m : BitVec 3) : (s.setIrqEn m).par = s.par := rfl
@[simp] theorem State.setIrqEn_tb (s : State) (m : BitVec 3) : (s.setIrqEn m).tb = s.tb := rfl
@[simp] theorem State.setIrqEn_count (s : State) (m : BitVec 3) : (s.setIrqEn m).count = s.count := rfl
@[simp] theorem State.setIrqEn_now (s : State) (m : BitVec 3) : (s.setIrqEn m).now = s.now := rfl
@[simp] theorem State.setIrqEn_lastArrival (s : State) (m : BitVec 3) : (s.setIrqEn m).lastArrival = s.lastArrival := rfl
@[simp] theorem State.setIrqEn_timeout (s : State) (m : BitVec 3) : (s.setIrqEn m).timeout = s.timeout := rfl
@[simp] theorem State.setIrqEn_auto (s : State) (m : BitVec 3) : (s.setIrqEn m).auto = s.auto := rfl
@[simp] theorem State.setIrqEn_key (s : State) (m : BitVec 3) : (s.setIrqEn m).key = s.key := rfl
@[simp] theorem State.setIrqEn_keyMask (s : State) (m : BitVec 3) : (s.setIrqEn m).keyMask = s.keyMask := rfl
@[simp] theorem State.setIrqEn_irqPend (s : State) (m : BitVec 3) : (s.setIrqEn m).irqPend = s.irqPend := rfl
@[simp] theorem State.setIrqEn_irqEn (s : State) (m : BitVec 3) : (s.setIrqEn m).irqEn = m := rfl
@[simp] theorem State.setIrqEn_result (s : State) (m : BitVec 3) : (s.setIrqEn m).result = s.result := rfl
@[simp] theorem State.setIrqEn_deliverCount (s : State) (m : BitVec 3) : (s.setIrqEn m).deliverCount = s.deliverCount := rfl
@[simp] theorem State.setIrqEn_errorCount (s : State) (m : BitVec 3) : (s.setIrqEn m).errorCount = s.errorCount := rfl
@[simp] theorem State.setIrqEn_out (s : State) (m : BitVec 3) : (s.setIrqEn m).out = s.out := rfl
@[simp] theorem State.setIrqEn_rdData (s : State) (m : BitVec 3) : (s.setIrqEn m).rdData = s.rdData := rfl
@[simp] theorem State.setIrqEn_inbox (s : State) (m : BitVec 3) : (s.setIrqEn m).inbox = s.inbox := rfl
@[simp] theorem State.setIrqEn_phase (s : State) (m : BitVec 3) : (s.setIrqEn m).phase = s.phase := rfl
@[simp] theorem State.setIrqEn_dec (s : State) (m : BitVec 3) : (s.setIrqEn m).dec = s.dec := rfl

@[simp] theorem State.raiseIrq_par (s : State) (m : BitVec 3) : (s.raiseIrq m).par = s.par := rfl
@[simp] theorem State.raiseIrq_tb (s : State) (m : BitVec 3) : (s.raiseIrq m).tb = s.tb := rfl
@[simp] theorem State.raiseIrq_count (s : State) (m : BitVec 3) : (s.raiseIrq m).count = s.count := rfl
@[simp] theorem State.raiseIrq_now (s : State) (m : BitVec 3) : (s.raiseIrq m).now = s.now := rfl
@[simp] theorem State.raiseIrq_lastArrival (s : State) (m : BitVec 3) : (s.raiseIrq m).lastArrival = s.lastArrival := rfl
@[simp] theorem State.raiseIrq_timeout (s : State) (m : BitVec 3) : (s.raiseIrq m).timeout = s.timeout := rfl
@[simp] theorem State.raiseIrq_auto (s : State) (m : BitVec 3) : (s.raiseIrq m).auto = s.auto := rfl
@[simp] theorem State.raiseIrq_key (s : State) (m : BitVec 3) : (s.raiseIrq m).key = s.key := rfl
@[simp] theorem State.raiseIrq_keyMask (s : State) (m : BitVec 3) : (s.raiseIrq m).keyMask = s.keyMask := rfl
@[simp] theorem State.raiseIrq_irqPend (s : State) (m : BitVec 3) : (s.raiseIrq m).irqPend = s.irqPend ||| m := rfl
@[simp] theorem State.raiseIrq_irqEn (s : State) (m : BitVec 3) : (s.raiseIrq m).irqEn = s.irqEn := rfl
@[simp] theorem State.raiseIrq_result (s : State) (m : BitVec 3) : (s.raiseIrq m).result = s.result := rfl
@[simp] theorem State.raiseIrq_deliverCount (s : State) (m : BitVec 3) : (s.raiseIrq m).deliverCount = s.deliverCount := rfl
@[simp] theorem State.raiseIrq_errorCount (s : State) (m : BitVec 3) : (s.raiseIrq m).errorCount = s.errorCount := rfl
@[simp] theorem State.raiseIrq_out (s : State) (m : BitVec 3) : (s.raiseIrq m).out = s.out := rfl
@[simp] theorem State.raiseIrq_rdData (s : State) (m : BitVec 3) : (s.raiseIrq m).rdData = s.rdData := rfl
@[simp] theorem State.raiseIrq_inbox (s : State) (m : BitVec 3) : (s.raiseIrq m).inbox = s.inbox := rfl
@[simp] theorem State.raiseIrq_phase (s : State) (m : BitVec 3) : (s.raiseIrq m).phase = s.phase := rfl
@[simp] theorem State.raiseIrq_dec (s : State) (m : BitVec 3) : (s.raiseIrq m).dec = s.dec := rfl

@[simp] theorem State.clearIrq_par (s : State) (m : BitVec 3) : (s.clearIrq m).par = s.par := rfl
@[simp] theorem State.clearIrq_tb (s : State) (m : BitVec 3) : (s.clearIrq m).tb = s.tb := rfl
@[simp] theorem State.clearIrq_count (s : State) (m : BitVec 3) : (s.clearIrq m).count = s.count := rfl
@[simp] theorem State.clearIrq_now (s : State) (m : BitVec 3) : (s.clearIrq m).now = s.now := rfl
@[simp] theorem State.clearIrq_lastArrival (s : State) (m : BitVec 3) : (s.clearIrq m).lastArrival = s.lastArrival := rfl
@[simp] theorem State.clearIrq_timeout (s : State) (m : BitVec 3) : (s.clearIrq m).timeout = s.timeout := rfl
@[simp] theorem State.clearIrq_auto (s : State) (m : BitVec 3) : (s.clearIrq m).auto = s.auto := rfl
@[simp] theorem State.clearIrq_key (s : State) (m : BitVec 3) : (s.clearIrq m).key = s.key := rfl
@[simp] theorem State.clearIrq_keyMask (s : State) (m : BitVec 3) : (s.clearIrq m).keyMask = s.keyMask := rfl
@[simp] theorem State.clearIrq_irqPend (s : State) (m : BitVec 3) : (s.clearIrq m).irqPend = s.irqPend &&& ~~~m := rfl
@[simp] theorem State.clearIrq_irqEn (s : State) (m : BitVec 3) : (s.clearIrq m).irqEn = s.irqEn := rfl
@[simp] theorem State.clearIrq_result (s : State) (m : BitVec 3) : (s.clearIrq m).result = s.result := rfl
@[simp] theorem State.clearIrq_deliverCount (s : State) (m : BitVec 3) : (s.clearIrq m).deliverCount = s.deliverCount := rfl
@[simp] theorem State.clearIrq_errorCount (s : State) (m : BitVec 3) : (s.clearIrq m).errorCount = s.errorCount := rfl
@[simp] theorem State.clearIrq_out (s : State) (m : BitVec 3) : (s.clearIrq m).out = s.out := rfl
@[simp] theorem State.clearIrq_rdData (s : State) (m : BitVec 3) : (s.clearIrq m).rdData = s.rdData := rfl
@[simp] theorem State.clearIrq_inbox (s : State) (m : BitVec 3) : (s.clearIrq m).inbox = s.inbox := rfl
@[simp] theorem State.clearIrq_phase (s : State) (m : BitVec 3) : (s.clearIrq m).phase = s.phase := rfl
@[simp] theorem State.clearIrq_dec (s : State) (m : BitVec 3) : (s.clearIrq m).dec = s.dec := rfl

@[simp] theorem State.setRdData_par (s : State) (w : Word) : (s.setRdData w).par = s.par := rfl
@[simp] theorem State.setRdData_tb (s : State) (w : Word) : (s.setRdData w).tb = s.tb := rfl
@[simp] theorem State.setRdData_count (s : State) (w : Word) : (s.setRdData w).count = s.count := rfl
@[simp] theorem State.setRdData_now (s : State) (w : Word) : (s.setRdData w).now = s.now := rfl
@[simp] theorem State.setRdData_lastArrival (s : State) (w : Word) : (s.setRdData w).lastArrival = s.lastArrival := rfl
@[simp] theorem State.setRdData_timeout (s : State) (w : Word) : (s.setRdData w).timeout = s.timeout := rfl
@[simp] theorem State.setRdData_auto (s : State) (w : Word) : (s.setRdData w).auto = s.auto := rfl
@[simp] theorem State.setRdData_key (s : State) (w : Word) : (s.setRdData w).key = s.key := rfl
@[simp] theorem State.setRdData_keyMask (s : State) (w : Word) : (s.setRdData w).keyMask = s.keyMask := rfl
@[simp] theorem State.setRdData_irqPend (s : State) (w : Word) : (s.setRdData w).irqPend = s.irqPend := rfl
@[simp] theorem State.setRdData_irqEn (s : State) (w : Word) : (s.setRdData w).irqEn = s.irqEn := rfl
@[simp] theorem State.setRdData_result (s : State) (w : Word) : (s.setRdData w).result = s.result := rfl
@[simp] theorem State.setRdData_deliverCount (s : State) (w : Word) : (s.setRdData w).deliverCount = s.deliverCount := rfl
@[simp] theorem State.setRdData_errorCount (s : State) (w : Word) : (s.setRdData w).errorCount = s.errorCount := rfl
@[simp] theorem State.setRdData_out (s : State) (w : Word) : (s.setRdData w).out = s.out := rfl
@[simp] theorem State.setRdData_rdData (s : State) (w : Word) : (s.setRdData w).rdData = w := rfl
@[simp] theorem State.setRdData_inbox (s : State) (w : Word) : (s.setRdData w).inbox = s.inbox := rfl
@[simp] theorem State.setRdData_phase (s : State) (w : Word) : (s.setRdData w).phase = s.phase := rfl
@[simp] theorem State.setRdData_dec (s : State) (w : Word) : (s.setRdData w).dec = s.dec := rfl

@[simp] theorem State.setInbox_par (s : State) (es : List Event) : (s.setInbox es).par = s.par := rfl
@[simp] theorem State.setInbox_tb (s : State) (es : List Event) : (s.setInbox es).tb = s.tb := rfl
@[simp] theorem State.setInbox_count (s : State) (es : List Event) : (s.setInbox es).count = s.count := rfl
@[simp] theorem State.setInbox_now (s : State) (es : List Event) : (s.setInbox es).now = s.now := rfl
@[simp] theorem State.setInbox_lastArrival (s : State) (es : List Event) : (s.setInbox es).lastArrival = s.lastArrival := rfl
@[simp] theorem State.setInbox_timeout (s : State) (es : List Event) : (s.setInbox es).timeout = s.timeout := rfl
@[simp] theorem State.setInbox_auto (s : State) (es : List Event) : (s.setInbox es).auto = s.auto := rfl
@[simp] theorem State.setInbox_key (s : State) (es : List Event) : (s.setInbox es).key = s.key := rfl
@[simp] theorem State.setInbox_keyMask (s : State) (es : List Event) : (s.setInbox es).keyMask = s.keyMask := rfl
@[simp] theorem State.setInbox_irqPend (s : State) (es : List Event) : (s.setInbox es).irqPend = s.irqPend := rfl
@[simp] theorem State.setInbox_irqEn (s : State) (es : List Event) : (s.setInbox es).irqEn = s.irqEn := rfl
@[simp] theorem State.setInbox_result (s : State) (es : List Event) : (s.setInbox es).result = s.result := rfl
@[simp] theorem State.setInbox_deliverCount (s : State) (es : List Event) : (s.setInbox es).deliverCount = s.deliverCount := rfl
@[simp] theorem State.setInbox_errorCount (s : State) (es : List Event) : (s.setInbox es).errorCount = s.errorCount := rfl
@[simp] theorem State.setInbox_out (s : State) (es : List Event) : (s.setInbox es).out = s.out := rfl
@[simp] theorem State.setInbox_rdData (s : State) (es : List Event) : (s.setInbox es).rdData = s.rdData := rfl
@[simp] theorem State.setInbox_inbox (s : State) (es : List Event) : (s.setInbox es).inbox = es := rfl
@[simp] theorem State.setInbox_phase (s : State) (es : List Event) : (s.setInbox es).phase = s.phase := rfl
@[simp] theorem State.setInbox_dec (s : State) (es : List Event) : (s.setInbox es).dec = s.dec := rfl

@[simp] theorem State.setDecoding_par (s : State) (ph : Phase) (d : Decoding) : (s.setDecoding ph d).par = s.par := rfl
@[simp] theorem State.setDecoding_tb (s : State) (ph : Phase) (d : Decoding) : (s.setDecoding ph d).tb = s.tb := rfl
@[simp] theorem State.setDecoding_count (s : State) (ph : Phase) (d : Decoding) : (s.setDecoding ph d).count = s.count := rfl
@[simp] theorem State.setDecoding_now (s : State) (ph : Phase) (d : Decoding) : (s.setDecoding ph d).now = s.now := rfl
@[simp] theorem State.setDecoding_lastArrival (s : State) (ph : Phase) (d : Decoding) : (s.setDecoding ph d).lastArrival = s.lastArrival := rfl
@[simp] theorem State.setDecoding_timeout (s : State) (ph : Phase) (d : Decoding) : (s.setDecoding ph d).timeout = s.timeout := rfl
@[simp] theorem State.setDecoding_auto (s : State) (ph : Phase) (d : Decoding) : (s.setDecoding ph d).auto = s.auto := rfl
@[simp] theorem State.setDecoding_key (s : State) (ph : Phase) (d : Decoding) : (s.setDecoding ph d).key = s.key := rfl
@[simp] theorem State.setDecoding_keyMask (s : State) (ph : Phase) (d : Decoding) : (s.setDecoding ph d).keyMask = s.keyMask := rfl
@[simp] theorem State.setDecoding_irqPend (s : State) (ph : Phase) (d : Decoding) : (s.setDecoding ph d).irqPend = s.irqPend := rfl
@[simp] theorem State.setDecoding_irqEn (s : State) (ph : Phase) (d : Decoding) : (s.setDecoding ph d).irqEn = s.irqEn := rfl
@[simp] theorem State.setDecoding_result (s : State) (ph : Phase) (d : Decoding) : (s.setDecoding ph d).result = s.result := rfl
@[simp] theorem State.setDecoding_deliverCount (s : State) (ph : Phase) (d : Decoding) : (s.setDecoding ph d).deliverCount = s.deliverCount := rfl
@[simp] theorem State.setDecoding_errorCount (s : State) (ph : Phase) (d : Decoding) : (s.setDecoding ph d).errorCount = s.errorCount := rfl
@[simp] theorem State.setDecoding_out (s : State) (ph : Phase) (d : Decoding) : (s.setDecoding ph d).out = s.out := rfl
@[simp] theorem State.setDecoding_rdData (s : State) (ph : Phase) (d : Decoding) : (s.setDecoding ph d).rdData = s.rdData := rfl
@[simp] theorem State.setDecoding_inbox (s : State) (ph : Phase) (d : Decoding) : (s.setDecoding ph d).inbox = s.inbox := rfl
@[simp] theorem State.setDecoding_phase (s : State) (ph : Phase) (d : Decoding) : (s.setDecoding ph d).phase = ph := rfl
@[simp] theorem State.setDecoding_dec (s : State) (ph : Phase) (d : Decoding) : (s.setDecoding ph d).dec = d := rfl

@[simp] theorem State.endDecode_par (s : State) : (s.endDecode).par = s.par := rfl
@[simp] theorem State.endDecode_tb (s : State) : (s.endDecode).tb = s.tb := rfl
@[simp] theorem State.endDecode_count (s : State) : (s.endDecode).count = s.count := rfl
@[simp] theorem State.endDecode_now (s : State) : (s.endDecode).now = s.now := rfl
@[simp] theorem State.endDecode_lastArrival (s : State) : (s.endDecode).lastArrival = s.lastArrival := rfl
@[simp] theorem State.endDecode_timeout (s : State) : (s.endDecode).timeout = s.timeout := rfl
@[simp] theorem State.endDecode_auto (s : State) : (s.endDecode).auto = s.auto := rfl
@[simp] theorem State.endDecode_key (s : State) : (s.endDecode).key = s.key := rfl
@[simp] theorem State.endDecode_keyMask (s : State) : (s.endDecode).keyMask = s.keyMask := rfl
@[simp] theorem State.endDecode_irqPend (s : State) : (s.endDecode).irqPend = s.irqPend := rfl
@[simp] theorem State.endDecode_irqEn (s : State) : (s.endDecode).irqEn = s.irqEn := rfl
@[simp] theorem State.endDecode_result (s : State) : (s.endDecode).result = s.result := rfl
@[simp] theorem State.endDecode_deliverCount (s : State) : (s.endDecode).deliverCount = s.deliverCount := rfl
@[simp] theorem State.endDecode_errorCount (s : State) : (s.endDecode).errorCount = s.errorCount := rfl
@[simp] theorem State.endDecode_out (s : State) : (s.endDecode).out = s.out := rfl
@[simp] theorem State.endDecode_rdData (s : State) : (s.endDecode).rdData = s.rdData := rfl
@[simp] theorem State.endDecode_inbox (s : State) : (s.endDecode).inbox = s.inbox := rfl
@[simp] theorem State.endDecode_phase (s : State) : (s.endDecode).phase = .idle := rfl
@[simp] theorem State.endDecode_dec (s : State) : (s.endDecode).dec = Decoding.empty := rfl

@[simp] theorem State.illegalCommand_par (s : State) : (s.illegalCommand).par = s.par := rfl
@[simp] theorem State.illegalCommand_tb (s : State) : (s.illegalCommand).tb = s.tb := rfl
@[simp] theorem State.illegalCommand_count (s : State) : (s.illegalCommand).count = s.count := rfl
@[simp] theorem State.illegalCommand_now (s : State) : (s.illegalCommand).now = s.now := rfl
@[simp] theorem State.illegalCommand_lastArrival (s : State) : (s.illegalCommand).lastArrival = s.lastArrival := rfl
@[simp] theorem State.illegalCommand_timeout (s : State) : (s.illegalCommand).timeout = s.timeout := rfl
@[simp] theorem State.illegalCommand_auto (s : State) : (s.illegalCommand).auto = s.auto := rfl
@[simp] theorem State.illegalCommand_key (s : State) : (s.illegalCommand).key = s.key := rfl
@[simp] theorem State.illegalCommand_keyMask (s : State) : (s.illegalCommand).keyMask = s.keyMask := rfl
@[simp] theorem State.illegalCommand_irqPend (s : State) : (s.illegalCommand).irqPend = s.irqPend ||| irqIllegal := rfl
@[simp] theorem State.illegalCommand_irqEn (s : State) : (s.illegalCommand).irqEn = s.irqEn := rfl
@[simp] theorem State.illegalCommand_result (s : State) : (s.illegalCommand).result = s.result := rfl
@[simp] theorem State.illegalCommand_deliverCount (s : State) : (s.illegalCommand).deliverCount = s.deliverCount := rfl
@[simp] theorem State.illegalCommand_errorCount (s : State) : (s.illegalCommand).errorCount = s.errorCount := rfl
@[simp] theorem State.illegalCommand_out (s : State) : (s.illegalCommand).out = s.out := rfl
@[simp] theorem State.illegalCommand_rdData (s : State) : (s.illegalCommand).rdData = s.rdData := rfl
@[simp] theorem State.illegalCommand_inbox (s : State) : (s.illegalCommand).inbox = s.inbox := rfl
@[simp] theorem State.illegalCommand_phase (s : State) : (s.illegalCommand).phase = s.phase := rfl
@[simp] theorem State.illegalCommand_dec (s : State) : (s.illegalCommand).dec = s.dec := rfl

@[simp] theorem State.abort_par (s : State) (c : Cause) : (s.abort c).par = s.par := rfl
@[simp] theorem State.abort_tb (s : State) (c : Cause) : (s.abort c).tb = [] := rfl
@[simp] theorem State.abort_count (s : State) (c : Cause) : (s.abort c).count = 0#32 := rfl
@[simp] theorem State.abort_now (s : State) (c : Cause) : (s.abort c).now = s.now := rfl
@[simp] theorem State.abort_lastArrival (s : State) (c : Cause) : (s.abort c).lastArrival = s.lastArrival := rfl
@[simp] theorem State.abort_timeout (s : State) (c : Cause) : (s.abort c).timeout = s.timeout := rfl
@[simp] theorem State.abort_auto (s : State) (c : Cause) : (s.abort c).auto = s.auto := rfl
@[simp] theorem State.abort_key (s : State) (c : Cause) : (s.abort c).key = s.key := rfl
@[simp] theorem State.abort_keyMask (s : State) (c : Cause) : (s.abort c).keyMask = s.keyMask := rfl
@[simp] theorem State.abort_irqPend (s : State) (c : Cause) : (s.abort c).irqPend = s.irqPend ||| irqError := rfl
@[simp] theorem State.abort_irqEn (s : State) (c : Cause) : (s.abort c).irqEn = s.irqEn := rfl
@[simp] theorem State.abort_result (s : State) (c : Cause) : (s.abort c).result = Cause.result c := rfl
@[simp] theorem State.abort_deliverCount (s : State) (c : Cause) : (s.abort c).deliverCount = s.deliverCount := rfl
@[simp] theorem State.abort_errorCount (s : State) (c : Cause) : (s.abort c).errorCount = s.errorCount + 1#32 := rfl
@[simp] theorem State.abort_out (s : State) (c : Cause) : (s.abort c).out = s.out := rfl
@[simp] theorem State.abort_rdData (s : State) (c : Cause) : (s.abort c).rdData = s.rdData := rfl
@[simp] theorem State.abort_inbox (s : State) (c : Cause) : (s.abort c).inbox = s.inbox := rfl
@[simp] theorem State.abort_phase (s : State) (c : Cause) : (s.abort c).phase = .idle := rfl
@[simp] theorem State.abort_dec (s : State) (c : Cause) : (s.abort c).dec = Decoding.empty := rfl

@[simp] theorem State.deliver_par (s : State) (ms : MeasurementSet) : (s.deliver ms).par = s.par := rfl
@[simp] theorem State.deliver_tb (s : State) (ms : MeasurementSet) : (s.deliver ms).tb = s.tb := rfl
@[simp] theorem State.deliver_count (s : State) (ms : MeasurementSet) : (s.deliver ms).count = s.count := rfl
@[simp] theorem State.deliver_now (s : State) (ms : MeasurementSet) : (s.deliver ms).now = s.now := rfl
@[simp] theorem State.deliver_lastArrival (s : State) (ms : MeasurementSet) : (s.deliver ms).lastArrival = s.lastArrival := rfl
@[simp] theorem State.deliver_timeout (s : State) (ms : MeasurementSet) : (s.deliver ms).timeout = s.timeout := rfl
@[simp] theorem State.deliver_auto (s : State) (ms : MeasurementSet) : (s.deliver ms).auto = s.auto := rfl
@[simp] theorem State.deliver_key (s : State) (ms : MeasurementSet) : (s.deliver ms).key = s.key := rfl
@[simp] theorem State.deliver_keyMask (s : State) (ms : MeasurementSet) : (s.deliver ms).keyMask = s.keyMask := rfl
@[simp] theorem State.deliver_irqPend (s : State) (ms : MeasurementSet) : (s.deliver ms).irqPend = s.irqPend ||| irqDeliver := rfl
@[simp] theorem State.deliver_irqEn (s : State) (ms : MeasurementSet) : (s.deliver ms).irqEn = s.irqEn := rfl
@[simp] theorem State.deliver_result (s : State) (ms : MeasurementSet) : (s.deliver ms).result = Result.ok := rfl
@[simp] theorem State.deliver_deliverCount (s : State) (ms : MeasurementSet) : (s.deliver ms).deliverCount = s.deliverCount + 1#32 := rfl
@[simp] theorem State.deliver_errorCount (s : State) (ms : MeasurementSet) : (s.deliver ms).errorCount = s.errorCount := rfl
@[simp] theorem State.deliver_out (s : State) (ms : MeasurementSet) : (s.deliver ms).out = writeOutputs ms := rfl
@[simp] theorem State.deliver_rdData (s : State) (ms : MeasurementSet) : (s.deliver ms).rdData = s.rdData := rfl
@[simp] theorem State.deliver_inbox (s : State) (ms : MeasurementSet) : (s.deliver ms).inbox = s.inbox := rfl
@[simp] theorem State.deliver_phase (s : State) (ms : MeasurementSet) : (s.deliver ms).phase = .idle := rfl
@[simp] theorem State.deliver_dec (s : State) (ms : MeasurementSet) : (s.deliver ms).dec = Decoding.empty := rfl

@[simp] theorem State.resetEvent_par (s : State) : (s.resetEvent).par = s.par := rfl
@[simp] theorem State.resetEvent_tb (s : State) : (s.resetEvent).tb = (State.initial s.par).tb := rfl
@[simp] theorem State.resetEvent_count (s : State) : (s.resetEvent).count = (State.initial s.par).count := rfl
@[simp] theorem State.resetEvent_now (s : State) : (s.resetEvent).now = (State.initial s.par).now := rfl
@[simp] theorem State.resetEvent_lastArrival (s : State) : (s.resetEvent).lastArrival = (State.initial s.par).lastArrival := rfl
@[simp] theorem State.resetEvent_timeout (s : State) : (s.resetEvent).timeout = (State.initial s.par).timeout := rfl
@[simp] theorem State.resetEvent_auto (s : State) : (s.resetEvent).auto = (State.initial s.par).auto := rfl
@[simp] theorem State.resetEvent_key (s : State) : (s.resetEvent).key = (State.initial s.par).key := rfl
@[simp] theorem State.resetEvent_keyMask (s : State) : (s.resetEvent).keyMask = (State.initial s.par).keyMask := rfl
@[simp] theorem State.resetEvent_irqPend (s : State) : (s.resetEvent).irqPend = (State.initial s.par).irqPend := rfl
@[simp] theorem State.resetEvent_irqEn (s : State) : (s.resetEvent).irqEn = (State.initial s.par).irqEn := rfl
@[simp] theorem State.resetEvent_result (s : State) : (s.resetEvent).result = (State.initial s.par).result := rfl
@[simp] theorem State.resetEvent_deliverCount (s : State) : (s.resetEvent).deliverCount = (State.initial s.par).deliverCount := rfl
@[simp] theorem State.resetEvent_errorCount (s : State) : (s.resetEvent).errorCount = (State.initial s.par).errorCount := rfl
@[simp] theorem State.resetEvent_out (s : State) : (s.resetEvent).out = (State.initial s.par).out := rfl
@[simp] theorem State.resetEvent_rdData (s : State) : (s.resetEvent).rdData = s.rdData := rfl
@[simp] theorem State.resetEvent_inbox (s : State) : (s.resetEvent).inbox = s.inbox := rfl
@[simp] theorem State.resetEvent_phase (s : State) : (s.resetEvent).phase = (State.initial s.par).phase := rfl
@[simp] theorem State.resetEvent_dec (s : State) : (s.resetEvent).dec = (State.initial s.par).dec := rfl

end Sys2Proof.Machine
end

