-- ==== Sys2Proof/Laws/Ops.lean ====
section
/-! SUPPORT. One lemma per shared operation that says all it can do, and one for an event and for a step: later proofs cite
these and unfold nothing. -/

namespace Sys2Proof.Machine

/-! ## The readers and the checks -/

/-- A check passes exactly when its condition does not hold. -/
@[simp] theorem abortIf_eq_ok (bad : Bool) (c : Cause) (u : Unit) : abortIf bad c = .ok u ↔ bad = false := by
  cases bad <;> simp [abortIf]

@[simp] theorem abortIf_true (c : Cause) : abortIf true c = .error c := rfl

@[simp] theorem abortIf_false (c : Cause) : abortIf false c = .ok () := rfl

/-- A byte is read exactly when the string has that index. -/
@[simp] theorem readByte_eq_ok (s : Bytes) (i : Nat) (c : Cause) (b : Byte) : readByte s i c = .ok b ↔ s[i]? = some b := by
  unfold readByte
  split <;> simp_all

/-- Within bounds the read gives the byte. -/
theorem readByte_of_lt (s : Bytes) (i : Nat) (c : Cause) (h : i < s.length) : readByte s i c = .ok (s.getD i 0#8) := by
  simp [readByte, h]

/-- Out of bounds the read raises the caller's abort. -/
theorem readByte_of_ge (s : Bytes) (i : Nat) (c : Cause) (h : s.length ≤ i) : readByte s i c = .error c := by
  simp [readByte, h]

/-- A sequence of two parts succeeds exactly when both do. -/
theorem except_bind_eq_ok {α β : Type} (x : Except Cause α) (f : α → Except Cause β) (b : β) :
    (x >>= f) = .ok b ↔ ∃ a, x = .ok a ∧ f a = .ok b := by
  cases x <;> simp [bind, Except.bind]

@[simp] theorem except_ok_bind {α β : Type} (a : α) (f : α → Except Cause β) : ((.ok a : Except Cause α) >>= f) = f a := rfl

@[simp] theorem except_error_bind {α β : Type} (c : Cause) (f : α → Except Cause β) :
    ((.error c : Except Cause α) >>= f) = .error c := rfl

/-! ## Decoding -/

/-- An instruction with reserved bits is decoded exactly when they are all 0. -/
@[simp] theorem withReserved_eq_ok {n : Nat} (r : BitVec n) (i j : Instr) :
    withReserved r i = .ok j ↔ r = 0#n ∧ i = j := by
  unfold withReserved
  split <;> simp_all

/-- The command decoder gives a command, never a READ and never a data-type tag. -/
theorem decodeCmd_is_command (w : BitVec 32) (i : Instr) (h : decodeCmd w = .ok i) :
    (∀ a, i ≠ .read a) ∧ i ≠ .u32 ∧ i ≠ .u16 ∧ i ≠ .octet := by
  unfold decodeCmd at h
  simp only at h
  split at h; · rw [← ((withReserved_eq_ok _ _ _).1 h).2]; simp
  split at h; · rw [← ((withReserved_eq_ok _ _ _).1 h).2]; simp
  split at h; · rw [← ((withReserved_eq_ok _ _ _).1 h).2]; simp
  split at h; · rw [← ((withReserved_eq_ok _ _ _).1 h).2]; simp
  split at h; · cases h; simp
  split at h; · rw [← ((withReserved_eq_ok _ _ _).1 h).2]; simp
  split at h; · rw [← ((withReserved_eq_ok _ _ _).1 h).2]; simp
  split at h; · rw [← ((withReserved_eq_ok _ _ _).1 h).2]; simp
  cases h

/-- The tag decoder gives one of the three operations, each from its own tag. -/
theorem decodeTag_cases (p : Params) (b : Byte) (i : Instr) (h : decodeTag p b = .ok i) :
    (i = .u32 ∧ b = p.tagU32) ∨ (i = .u16 ∧ b = p.tagU16) ∨ (i = .octet ∧ b = p.tagOctet) := by
  unfold decodeTag at h
  split at h
  · next e => cases h; exact .inl ⟨rfl, e⟩
  split at h
  · next e => cases h; exact .inr (.inl ⟨rfl, e⟩)
  split at h
  · next e => cases h; exact .inr (.inr ⟨rfl, e⟩)
  cases h

/-! ## The take, FEED, CHECK and TICK -/

/-- All that a take can do: decode the telegram that was in the buffer. -/
theorem takeAndDecode_eq_next (s t : State) :
    s.takeAndDecode = .next t ↔ ∃ raw, s.telegram = some raw ∧ t = s.discardBuffer.finish (s.decodeOf raw) := by
  unfold State.takeAndDecode
  cases h : s.telegram <;> simp [eq_comm (a := t)]

/-- The buffer gives no telegram exactly when an entry below COUNT holds no value. -/
theorem telegram_eq_none (s : State) :
    s.telegram = none ↔ ∃ j, j < s.count.toNat ∧ Memory.read s.tb j = none := by
  simp [State.telegram, Memory.readRange_eq_none]

/-- A take faults exactly when there is no telegram to take. -/
theorem takeAndDecode_eq_fault (s : State) (f : Fault) : s.takeAndDecode = .fault f ↔ f = .tbNoValue ∧ s.telegram = none := by
  unfold State.takeAndDecode
  cases s.telegram <;> simp [eq_comm]

/-- The stages before delivery succeed exactly when each does. -/
theorem telegramOutcome_eq_ok (p : Params) (key : Bytes) (loaded : Bool) (raw : Bytes) (ms : MeasurementSet) :
    telegramOutcome p key loaded raw = .ok ms ↔
      ∃ pb, reassemble p raw = .ok pb ∧ ∃ pt, openEnvelope p key loaded pb = .ok pt ∧ decodeRecords p pt = .ok ms := by
  simp only [telegramOutcome, except_bind_eq_ok]

/-- The end of a decode is a delivery or an abort. -/
theorem finish_cases (s : State) (r : Except Cause MeasurementSet) :
    (∃ ms, r = .ok ms ∧ s.finish r = s.deliver ms) ∨ (∃ c, r = .error c ∧ s.finish r = s.abort c) := by
  cases r with
  | ok ms => exact .inl ⟨ms, rfl, rfl⟩
  | error c => exact .inr ⟨c, rfl, rfl⟩

/-- All that FEED can do. -/
theorem execFeed_eq_next (b : BitVec 8) (s t : State) :
    execFeed b s = .next t ↔
      (s.count.toNat = s.par.val.bufCap ∧ t = s.markArrival.abort .framingBufferOverflow) ∨
      (s.count.toNat < s.par.val.bufCap ∧ t = s.markArrival.appendByte b) := by
  unfold execFeed
  simp only
  split
  · next h => simp [h, eq_comm]
  · split
    · next h1 h2 => simp; omega
    · next h1 h2 =>
      have : s.count.toNat < s.par.val.bufCap := by omega
      simp [h1, this, eq_comm]

/-- All that CHECK can do. -/
theorem execCheck_eq_next (s t : State) :
    execCheck s = .next t ↔
      (s.complete = false ∧ t = s) ∨
      (s.complete = true ∧ ∃ raw, s.telegram = some raw ∧ t = s.discardBuffer.finish (s.decodeOf raw)) := by
  unfold execCheck
  split
  · next h => simp [h, takeAndDecode_eq_next]
  · next h => simp [h, eq_comm]

/-- All that TICK can do. -/
theorem tickEvent_eq_next (s t : State) :
    tickEvent s = .next t ↔
      (¬(s.auto = 1#1 ∧ s.advanceNow.complete = true) ∧ t = s.advanceNow) ∨
      (s.auto = 1#1 ∧ s.advanceNow.complete = true ∧
        ∃ raw, s.telegram = some raw ∧ t = s.advanceNow.discardBuffer.finish (s.decodeOf raw)) := by
  have e : tickEvent s = if s.auto = 1#1 ∧ s.advanceNow.complete = true then s.advanceNow.takeAndDecode
      else .next s.advanceNow := rfl
  rw [e]
  by_cases h : s.auto = 1#1 ∧ s.advanceNow.complete = true
  · rw [if_pos h, takeAndDecode_eq_next]
    simp only [h, not_true, false_and, false_or, true_and, and_self]
    rfl
  · rw [if_neg h]
    simp only [h, not_false_eq_true, true_and, Host.Outcome.next.injEq, eq_comm (a := s.advanceNow)]
    tauto

/-! ## One event -/

/-- All that one event can do, one constructor per case. -/
inductive EventStep (s : State) : Event → State → Prop where
  | reset : EventStep s .reset s.resetEvent
  | tickQuiet (h : ¬(s.auto = 1#1 ∧ s.advanceNow.complete = true)) : EventStep s .tick s.advanceNow
  | tickTake (raw : Bytes) (ha : s.auto = 1#1) (hc : s.advanceNow.complete = true) (hr : s.telegram = some raw) :
      EventStep s .tick (s.advanceNow.discardBuffer.finish (s.decodeOf raw))
  | illegal (w : BitVec 32) (r : DecodeReject) (h : decodeCmd w = .error r) : EventStep s (.cmd w) s.illegalCommand
  | nop (w : BitVec 32) (h : decodeCmd w = .ok .nop) : EventStep s (.cmd w) s
  | feedFull (w : BitVec 32) (b : BitVec 8) (h : decodeCmd w = .ok (.feed b)) (hc : s.count.toNat = s.par.val.bufCap) :
      EventStep s (.cmd w) (s.markArrival.abort .framingBufferOverflow)
  | feedRoom (w : BitVec 32) (b : BitVec 8) (h : decodeCmd w = .ok (.feed b)) (hc : s.count.toNat < s.par.val.bufCap) :
      EventStep s (.cmd w) (s.markArrival.appendByte b)
  | checkQuiet (w : BitVec 32) (h : decodeCmd w = .ok .check) (hc : s.complete = false) : EventStep s (.cmd w) s
  | checkTake (w : BitVec 32) (raw : Bytes) (h : decodeCmd w = .ok .check) (hc : s.complete = true)
      (hr : s.telegram = some raw) : EventStep s (.cmd w) (s.discardBuffer.finish (s.decodeOf raw))
  | keyb (w : BitVec 32) (i : BitVec 4) (b : BitVec 8) (h : decodeCmd w = .ok (.keyb i b)) :
      EventStep s (.cmd w) (s.writeKey i b)
  | setto (w : BitVec 32) (v : BitVec 24) (h : decodeCmd w = .ok (.setto v)) : EventStep s (.cmd w) (s.setTimeout v)
  | setctl (w : BitVec 32) (v : BitVec 1) (h : decodeCmd w = .ok (.setctl v)) : EventStep s (.cmd w) (s.setAuto v)
  | setie (w : BitVec 32) (v : BitVec 3) (h : decodeCmd w = .ok (.setie v)) : EventStep s (.cmd w) (s.setIrqEn v)
  | clrirq (w : BitVec 32) (v : BitVec 3) (h : decodeCmd w = .ok (.clrirq v)) : EventStep s (.cmd w) (s.clearIrq v)
  | read (a : BitVec 12) : EventStep s (.read a) (s.setRdData (s.readWord (a.extractLsb' 2 10)))

/-- An event that goes on does one of the cases. -/
theorem takeEvent_inv (e : Event) (s t : State) (h : takeEvent e s = .next t) : EventStep s e t := by
  cases e with
  | reset => cases h; exact .reset
  | tick =>
    rcases (tickEvent_eq_next s t).1 h with ⟨hq, rfl⟩ | ⟨ha, hc, raw, hr, rfl⟩
    · exact .tickQuiet hq
    · exact .tickTake raw ha hc hr
  | read a => cases h; exact .read a
  | cmd w =>
    unfold takeEvent eventAction at h
    simp only at h
    cases hd : decodeCmd w with
    | error r => rw [hd] at h; cases h; exact .illegal w r hd
    | ok i =>
      rw [hd] at h
      have hcmd := decodeCmd_is_command w i hd
      cases i with
      | nop => cases h; exact .nop w hd
      | feed b =>
        rcases (execFeed_eq_next b s t).1 h with ⟨hc, rfl⟩ | ⟨hc, rfl⟩
        · exact .feedFull w b hd hc
        · exact .feedRoom w b hd hc
      | check =>
        rcases (execCheck_eq_next s t).1 h with ⟨hc, rfl⟩ | ⟨hc, raw, hr, rfl⟩
        · exact .checkQuiet w hd hc
        · exact .checkTake w raw hd hc hr
      | keyb i b => cases h; exact .keyb w i b hd
      | setto v => cases h; exact .setto w v hd
      | setctl v => cases h; exact .setctl w v hd
      | setie v => cases h; exact .setie w v hd
      | clrirq v => cases h; exact .clrirq w v hd
      | read a => exact absurd rfl (hcmd.1 a)
      | u32 => exact absurd rfl hcmd.2.1
      | u16 => exact absurd rfl hcmd.2.2.1
      | octet => exact absurd rfl hcmd.2.2.2

/-! ## One step -/

/-- All that one step can do, by where the engine stands. -/
inductive StepCase (s : State) : State → Prop where
  | quiet (hp : s.phase = .idle) (hi : s.inbox = []) : StepCase s s
  | event (e : Event) (es : List Event) (t : State) (hp : s.phase = .idle) (hi : s.inbox = e :: es)
      (h : EventStep (s.setInbox es) e t) : StepCase s t
  | header (hp : s.phase = .header) : StepCase s (s.decoderStep .tag (recordHeader s.par.val s.dec))
  | tagAbort (c : Cause) (hp : s.phase = .tag) (h : fetchTag s.par.val s.dec = .error c) : StepCase s (s.abort c)
  | tagUnknown (d : Decoding) (r : DecodeReject) (hp : s.phase = .tag) (h : fetchTag s.par.val s.dec = .ok d)
      (hd : decodeTag s.par.val d.dt = .error r) : StepCase s (s.abort .obisBadDataType)
  | tagU32 (d : Decoding) (hp : s.phase = .tag) (h : fetchTag s.par.val s.dec = .ok d)
      (hd : decodeTag s.par.val d.dt = .ok .u32) : StepCase s ((s.setDecoding .tag d).decoderStep .advance (u32Value d))
  | tagU16 (d : Decoding) (hp : s.phase = .tag) (h : fetchTag s.par.val s.dec = .ok d)
      (hd : decodeTag s.par.val d.dt = .ok .u16) : StepCase s ((s.setDecoding .tag d).decoderStep .advance (u16Value s.par.val d))
  | tagOctet (d : Decoding) (hp : s.phase = .tag) (h : fetchTag s.par.val s.dec = .ok d)
      (hd : decodeTag s.par.val d.dt = .ok .octet) :
      StepCase s ((s.setDecoding .tag d).decoderStep .advance (octetValue d))
  | advance (hp : s.phase = .advance) : StepCase s (advanceStep s)

/-- A step that goes on does one of the cases. -/
theorem step_inv (s t : State) (h : step s = .next t) : StepCase s t := by
  unfold step nextAction at h
  cases hp : s.phase with
  | idle =>
    simp only [hp] at h
    cases hi : s.inbox with
    | nil => simp only [hi] at h; cases h; exact .quiet hp hi
    | cons e es =>
      simp only [hi] at h
      exact .event e es t hp hi (takeEvent_inv e _ t h)
  | header => simp only [hp] at h; cases h; exact .header hp
  | advance => simp only [hp] at h; cases h; exact .advance hp
  | tag =>
    simp only [hp, tagAction] at h
    cases hf : fetchTag s.par.val s.dec with
    | error c => simp only [hf] at h; cases h; exact .tagAbort c hp hf
    | ok d =>
      simp only [hf] at h
      cases hd : decodeTag s.par.val d.dt with
      | error r => simp only [hd] at h; cases h; exact .tagUnknown d r hp hf hd
      | ok i =>
        simp only [hd] at h
        rcases decodeTag_cases _ _ _ hd with ⟨rfl, -⟩ | ⟨rfl, -⟩ | ⟨rfl, -⟩
        · cases h; exact .tagU32 d hp hf hd
        · cases h; exact .tagU16 d hp hf hd
        · cases h; exact .tagOctet d hp hf hd

end Sys2Proof.Machine
end

