-- ==== Sys2Proof/Laws/Cipher.lean ====
section
/-! SUPPORT. The lengths of the cipher's blocks. -/

namespace Sys2Proof.Machine

/-- The XOR of two strings is as long as the shorter. -/
@[simp] theorem xorBytes_length (a b : Bytes) : (xorBytes a b).length = min a.length b.length := by simp [xorBytes]

@[simp] theorem subBytes_length (s : Bytes) : (subBytes s).length = s.length := by simp [subBytes]

@[simp] theorem shiftRows_length (s : Bytes) : (shiftRows s).length = 16 := by simp [shiftRows]

@[simp] theorem mixColumns_length (s : Bytes) : (mixColumns s).length = 16 := by simp [mixColumns, mixColumn, List.range_succ]

@[simp] theorem rotWord_length (w : Bytes) : (rotWord w).length = w.length := by cases w <;> simp [rotWord]

/-- A new word of the key schedule has 4 bytes when those before it have. -/
theorem nextWord_length (ws : List Bytes) (i : Nat) (h : ∀ w ∈ ws, w.length = 4) (h1 : 4 ≤ i) (h2 : i ≤ ws.length) :
    (nextWord ws i).length = 4 := by
  have a : ∀ j, j < ws.length → (ws.getD j []).length = 4 := by
    intro j hj
    rw [List.getD_eq_getElem _ _ hj]
    exact h _ (List.getElem_mem _)
  unfold nextWord
  simp only
  split
  · simp only [xorBytes_length, subWord, List.length_map, rotWord_length, rcon, a _ (show i - 1 < ws.length by omega),
      a _ (show i - 4 < ws.length by omega)]
    rfl
  · simp only [xorBytes_length, a _ (show i - 1 < ws.length by omega), a _ (show i - 4 < ws.length by omega)]
    rfl

/-- The key schedule of a 16-byte key: its number of words, each of 4 bytes. -/
theorem keyWords_length (k : Bytes) (hk : k.length = 16) (n : Nat) :
    (keyWords k n).length = n + 4 ∧ ∀ w ∈ keyWords k n, w.length = 4 := by
  induction n with
  | zero => simp [keyWords, slice, hk]
  | succ n ih =>
    obtain ⟨h1, h2⟩ := ih
    simp only [keyWords, List.length_append, h1]
    refine ⟨rfl, fun w hw => ?_⟩
    simp only [List.mem_append, List.mem_singleton] at hw
    rcases hw with hw | rfl
    · exact h2 w hw
    · exact nextWord_length _ _ h2 (by omega) (by omega)

/-- A round key of a 16-byte key has 16 bytes. -/
theorem roundKey_length (k : Bytes) (hk : k.length = 16) (r : Nat) (hr : r ≤ 10) :
    (roundKey (keySchedule k) r).length = 16 := by
  obtain ⟨h1, h2⟩ := keyWords_length k hk 40
  have flat : ∀ ws : List Bytes, (∀ w ∈ ws, w.length = 4) → ws.flatten.length = 4 * ws.length := by
    intro ws
    induction ws with
    | nil => simp
    | cons w ws ih =>
      intro h
      rw [List.flatten_cons, List.length_append, ih fun v hv => h v (by simp [hv]), h w (by simp), List.length_cons]
      omega
  unfold roundKey keySchedule
  rw [flat _ fun w hw => h2 w (List.mem_of_mem_drop (List.mem_of_mem_take hw))]
  simp only [List.length_take, List.length_drop, h1]
  omega

/-- A block of the cipher has 16 bytes. -/
theorem aesWith_length (k inp : Bytes) (hk : k.length = 16) : (aesWith (keySchedule k) inp).length = 16 := by
  simp [aesWith, addRoundKey, roundKey_length k hk 10 (by omega)]

end Sys2Proof.Machine
end

