-- ==== Sys2Proof/Laws/Params.lean ====
section
/-! SUPPORT. What a legal parameter set satisfies: the value of each parameter that has a single legal one, and the bounds of the
others. Later proofs cite these and unfold no check. -/

namespace Sys2Proof

/-- Legality is every check of its own. -/
theorem Params.legal_iff (p : Params) :
    p.legal = true ↔ p.bufCapOk = true ∧ p.timeoutResetOk = true ∧ p.fullHdrOk = true ∧ p.footerOk = true ∧
      p.lenCorrOk = true ∧ p.tagLenOk = true ∧ p.decStartOk = true ∧ p.tagsOk = true ∧ p.mediaOk = true ∧
      p.tablePairsOk = true ∧ p.noPowerFactor = true ∧ p.metaSkipOk = true ∧ p.timeBitsOk = true ∧ p.introOk = true ∧
      p.envelopeOk = true ∧ p.recordOk = true ∧ p.cipherOk = true := by
  simp only [Params.legal, Bool.and_eq_true, and_assoc]

/-- The parameters with a single legal value (00_scope.md R8), all at once. -/
theorem Params.singleValues_of_legal (p : LegalParams) :
    p.val.timeBits = 32 ∧ p.val.mbusIntro = 4 ∧ p.val.dlmsSystLen = 8 ∧ p.val.dlmsHdrExt = 2 ∧ p.val.dlmsHdr = 16 ∧
      p.val.dlmsMin = 16 ∧ p.val.obisCodeLen = 6 ∧ p.val.metaSentinel = 0x0F#8 ∧ p.val.recBreak = 2 ∧ p.val.scalerOff = 5 ∧
      p.val.scale10 = 0xFF#8 ∧ p.val.scale100 = 0xFE#8 ∧ p.val.keyLen = 16 ∧ p.val.nonceLen = 12 := by
  have h := (Params.legal_iff p.val).1 p.property
  simp only [Params.timeBitsOk, Params.introOk, Params.envelopeOk, Params.recordOk, Params.cipherOk, Bool.and_eq_true,
    decide_eq_true_eq] at h
  tauto

@[simp] theorem Params.timeBits_of_legal (p : LegalParams) : p.val.timeBits = 32 := by
  simp only [Params.singleValues_of_legal p]

@[simp] theorem Params.mbusIntro_of_legal (p : LegalParams) : p.val.mbusIntro = 4 := by
  simp only [Params.singleValues_of_legal p]

@[simp] theorem Params.dlmsSystLen_of_legal (p : LegalParams) : p.val.dlmsSystLen = 8 := by
  simp only [Params.singleValues_of_legal p]

@[simp] theorem Params.dlmsHdrExt_of_legal (p : LegalParams) : p.val.dlmsHdrExt = 2 := by
  simp only [Params.singleValues_of_legal p]

@[simp] theorem Params.dlmsHdr_of_legal (p : LegalParams) : p.val.dlmsHdr = 16 := by
  simp only [Params.singleValues_of_legal p]

@[simp] theorem Params.dlmsMin_of_legal (p : LegalParams) : p.val.dlmsMin = 16 := by
  simp only [Params.singleValues_of_legal p]

@[simp] theorem Params.obisCodeLen_of_legal (p : LegalParams) : p.val.obisCodeLen = 6 := by
  simp only [Params.singleValues_of_legal p]

@[simp] theorem Params.metaSentinel_of_legal (p : LegalParams) : p.val.metaSentinel = 0x0F#8 := by
  simp only [Params.singleValues_of_legal p]

@[simp] theorem Params.recBreak_of_legal (p : LegalParams) : p.val.recBreak = 2 := by
  simp only [Params.singleValues_of_legal p]

@[simp] theorem Params.scalerOff_of_legal (p : LegalParams) : p.val.scalerOff = 5 := by
  simp only [Params.singleValues_of_legal p]

@[simp] theorem Params.scale10_of_legal (p : LegalParams) : p.val.scale10 = 0xFF#8 := by
  simp only [Params.singleValues_of_legal p]

@[simp] theorem Params.scale100_of_legal (p : LegalParams) : p.val.scale100 = 0xFE#8 := by
  simp only [Params.singleValues_of_legal p]

@[simp] theorem Params.keyLen_of_legal (p : LegalParams) : p.val.keyLen = 16 := by
  simp only [Params.singleValues_of_legal p]

@[simp] theorem Params.nonceLen_of_legal (p : LegalParams) : p.val.nonceLen = 12 := by
  simp only [Params.singleValues_of_legal p]

/-- BUF_CAP fits COUNT. -/
theorem Params.bufCap_of_legal (p : LegalParams) : 1 ≤ p.val.bufCap ∧ p.val.bufCap < 2 ^ 32 := by
  have h := ((Params.legal_iff p.val).1 p.property).1
  simpa [Params.bufCapOk] using h

/-- TIMEOUT_RESET fits TIMEOUT. -/
theorem Params.timeoutReset_of_legal (p : LegalParams) : p.val.timeoutReset < 2 ^ 24 := by
  have h := ((Params.legal_iff p.val).1 p.property).2.1
  simpa [Params.timeoutResetOk] using h

/-- A frame's header covers its intro, and its footer holds its stop marker. -/
theorem Params.frame_of_legal (p : LegalParams) : 4 ≤ p.val.mbusFullHdr ∧ 1 ≤ p.val.mbusFooter := by
  have h := (Params.legal_iff p.val).1 p.property
  have h1 := h.2.2.1
  have h2 := h.2.2.2.1
  simp only [Params.fullHdrOk, Params.footerOk, decide_eq_true_eq, Params.mbusIntro_of_legal] at h1 h2
  exact ⟨h1, h2⟩

/-- The three tags are pairwise distinct. -/
theorem Params.tags_of_legal (p : LegalParams) :
    p.val.tagU32 ≠ p.val.tagOctet ∧ p.val.tagU16 ≠ p.val.tagOctet ∧ p.val.tagU16 ≠ p.val.tagU32 := by
  have h := (Params.legal_iff p.val).1 p.property
  simp only [Params.tagsOk, Bool.and_eq_true, decide_eq_true_eq] at h
  tauto

/-- No row of the table is PowerFactor. -/
theorem Params.noPowerFactor_of_legal (p : LegalParams) : ∀ r ∈ p.val.obisTable, r.codeType ≠ .powerFactor := by
  have h := (Params.legal_iff p.val).1 p.property
  have h1 := h.2.2.2.2.2.2.2.2.2.2.1
  simpa [Params.noPowerFactor] using h1

end Sys2Proof
end

