-- ==== Sys2Proof/Laws/Decoder.lean ====
section
/-! SUPPORT. What each step of the record decoder leaves when it goes on, and what the classification and the scale code can be. -/

namespace Sys2Proof.Machine

/-- All that the record header leaves: a new code, and the cursor 8 bytes on and inside PT. -/
theorem recordHeader_inv (p : Params) (d d' : Decoding) (h : recordHeader p d = .ok d') :
    ∃ code, d' = { d with code := code, cur := d.cur + 8 } ∧ d.cur + 8 ≤ d.pt.length := by
  unfold recordHeader Decoding.rd at h
  simp only [except_bind_eq_ok, readByte_eq_ok] at h
  obtain ⟨_, _, _, _, _, _, _, _, _, _, _, _, _, _, _, _, _, _, c5, h5, h⟩ := h
  cases h
  obtain ⟨hlt, -⟩ := List.getElem?_eq_some_iff.1 h5
  exact ⟨_, rfl, by omega⟩

/-- All that fetching the tag leaves: the tag, its code-type, and the cursor and the value start just past the tag. -/
theorem fetchTag_inv (p : Params) (d d' : Decoding) (h : fetchTag p d = .ok d') :
    ∃ dt ct, d.pt[d.cur]? = some dt ∧ classify p d.code = .ok ct ∧
      d' = { d with dt := dt, cur := d.cur + 1, ct := ct, v := d.cur + 1 } := by
  unfold fetchTag Decoding.rd at h
  simp only [except_bind_eq_ok, readByte_eq_ok] at h
  obtain ⟨dt, h1, ct, h2, h3⟩ := h
  cases h3
  exact ⟨dt, ct, h1, h2, rfl⟩

/-- All that a U32 value leaves. -/
theorem u32Value_inv (d d' : Decoding) (h : u32Value d = .ok d') :
    ∃ x, d.v + 4 ≤ d.pt.length ∧ d' = { d with ms := d.ms.storeNum d.ct ⟨x, 0#2⟩, dlen := 4 } := by
  unfold u32Value Decoding.rd at h
  simp only [except_bind_eq_ok, readByte_eq_ok, abortIf_eq_ok] at h
  obtain ⟨_, h1, b0, _, b1, _, b2, _, b3, _, h3⟩ := h
  cases h3
  exact ⟨_, by simpa using h1, rfl⟩

/-- All that a U16 value leaves. -/
theorem u16Value_inv (p : Params) (d d' : Decoding) (h : u16Value p d = .ok d') :
    ∃ x, d.v + 2 ≤ d.pt.length ∧ d' = { d with ms := d.ms.storeNum d.ct ⟨x, scaleCode p d.pt d.v⟩, dlen := 2 } := by
  unfold u16Value Decoding.rd at h
  simp only [except_bind_eq_ok, readByte_eq_ok, abortIf_eq_ok] at h
  obtain ⟨_, h1, b0, _, b1, _, h3⟩ := h
  cases h3
  exact ⟨_, by simpa using h1, rfl⟩

/-- All that an octet string leaves. -/
theorem octetValue_inv (d d' : Decoding) (h : octetValue d = .ok d') :
    ∃ (n : Byte) (ms : MeasurementSet), d.cur + 1 + n.toNat ≤ d.pt.length ∧
      storeOctets d.ms d.ct (slice d.pt (d.cur + 1) (d.cur + 1 + n.toNat)) = .ok ms ∧
      d' = { d with ms := ms, cur := d.cur + 1, dlen := n.toNat } := by
  unfold octetValue Decoding.rd at h
  simp only [except_bind_eq_ok, readByte_eq_ok, abortIf_eq_ok] at h
  obtain ⟨n, h1, _, h2, ms, h3, h4⟩ := h
  cases h4
  exact ⟨n, ms, by simpa using h2, h3, rfl⟩

/-- A tag's operation is one of the three, by the tag. -/
theorem tagOperation_inv (p : Params) (d d' : Decoding) (h : tagOperation p d = .ok d') :
    (decodeTag p d.dt = .ok .u32 ∧ u32Value d = .ok d') ∨ (decodeTag p d.dt = .ok .u16 ∧ u16Value p d = .ok d') ∨
      (decodeTag p d.dt = .ok .octet ∧ octetValue d = .ok d') := by
  unfold tagOperation at h
  split at h
  · next hd => exact .inl ⟨hd, h⟩
  · next hd => exact .inr (.inl ⟨hd, h⟩)
  · next hd => exact .inr (.inr ⟨hd, h⟩)
  · cases h

/-- The octet strings of a set change one at a time. -/
theorem storeOctets_inv (ms ms' : MeasurementSet) (ct : Option CodeType) (val : Bytes) (h : storeOctets ms ct val = .ok ms') :
    (ct = some .timestamp ∧ ∃ t, timestampOf val = some t ∧ ms' = { ms with ts := some t }) ∨
      (ct = some .serialNumber ∧ ms' = { ms with serial := some val }) ∨
      (ct = some .deviceName ∧ ms' = { ms with name := some val }) ∨ ms' = ms := by
  unfold storeOctets at h
  split at h
  · split at h
    · next t ht => cases h; exact .inl ⟨rfl, t, ht, rfl⟩
    · cases h
  · cases h; exact .inr (.inl ⟨rfl, rfl⟩)
  · cases h; exact .inr (.inr (.inl ⟨rfl, rfl⟩))
  · cases h; exact .inr (.inr (.inr rfl))

/-- A sub-string of a given span is no longer than the span. -/
theorem slice_length_le (s : Bytes) (i n : Nat) : (slice s i (i + n)).length ≤ n := by
  simp [slice]
  omega

/-- A sub-string of a given span, as a drop and a take. -/
theorem slice_eq_take_drop (s : Bytes) (i n : Nat) : slice s i (i + n) = (s.drop i).take n := by
  unfold slice
  rw [List.drop_take]
  congr 1
  omega

/-- The scale code is 0, 1 or 2. -/
theorem scaleCode_ne_three (p : Params) (pt : Bytes) (v : Nat) : scaleCode p pt v ≠ 3#2 := by
  unfold scaleCode
  split
  · decide
  · split
    · decide
    · split <;> decide

/-- No code is classified as PowerFactor (00_scope.md R6). -/
theorem classify_ne_powerFactor (p : LegalParams) (code : Vector Byte 6) (ct : Option CodeType)
    (h : classify p.val code = .ok ct) : ct ≠ some .powerFactor := by
  unfold classify at h
  split at h
  · cases h
    intro e
    have hp := Params.noPowerFactor_of_legal p
    simp only [lookupCodeType, Option.map_eq_some_iff] at e
    obtain ⟨r, h1, h2⟩ := e
    exact hp r (List.mem_of_find?_eq_some h1) h2
  · cases h

end Sys2Proof.Machine
end

