-- ==== Sys2Proof/Laws/Outputs.lean ====
section
/-! SUPPORT. What the delivery writes, element by element. -/

namespace Sys2Proof.Machine

/-- OUT_VALID of a set, bit by bit in index order. -/
theorem validBits_getLsbD (ms : MeasurementSet) (i : Nat) (h : i < 16) :
    ms.validBits.getLsbD i = (CodeType.all.map ms.has).getD i false := by
  unfold MeasurementSet.validBits
  rw [BitVec.getLsbD_setWidth, BitVec.getLsbD_ofBoolListLE]
  simp [h]

/-- A padded text holds the text, then zeros. -/
theorem padText_getElem (t : Bytes) (i : Nat) (h : i < 255) : (padText t)[i] = t.getD i 0#8 := by
  have e : (padText t)[i] = (((t ++ List.replicate 255 0#8).take 255).toArray)[i]'(by
      simp only [List.size_toArray, List.length_take, List.length_append, List.length_replicate]; omega) := rfl
  rw [e, List.getElem_toArray, List.getElem_take, List.getElem_append]
  split
  · next hlt => rw [List.getD_eq_getElem _ _ hlt]
  · next hge => rw [List.getElem_replicate, List.getD_eq_default _ _ (by omega)]

/-- A slot's value and scale code are the reading's, or 0 where there is none. -/
theorem slot_getElem (v : Vector (Option Reading) 13) (k : Fin 13) :
    ((slotVals v)[k], (slotScales v)[k]) = match v[k] with | some r => (r.val, r.scale) | none => (0#32, 0#2) := by
  simp only [slotVals, slotScales, Fin.getElem_fin, Vector.getElem_mk, List.getElem_toArray, List.getElem_map,
    Vector.getElem_toList]
  cases v[k.val] <;> rfl

end Sys2Proof.Machine
end

