-- ==== Sys2Proof/Laws/PerInstr.lean ====
section
/-! SUPPORT. What is said of each instruction as syntax: its encoding is one of its own opcode-table row. -/

namespace Sys2Proof.Laws.EncodingRow

/-- The encoding of the instruction is of its own row: a command's word matches the row of 30_encoding.md R103 that has the
instruction's mnemonic; a READ's address has its two ignored bits 0 (R105); a tag is the one of the mnemonic (R118). -/
def Statement (i : Instr) : Prop :=
  ∀ p : LegalParams,
    match encode p.val i with
    | .cmd w => ∃ r ∈ cmdRows, r.mnemonic = i.mnemonic ∧ r.holds w = true
    | .read a => i.mnemonic = "READ" ∧ a.extractLsb' 0 2 = 0#2
    | .tag b => (i.mnemonic = "U32" ∧ b = p.val.tagU32) ∨ (i.mnemonic = "U16" ∧ b = p.val.tagU16) ∨
        (i.mnemonic = "OCTET" ∧ b = p.val.tagOctet)

/-- A row of the table is enough. -/
theorem of_row (i : Instr) (w : BitVec 32) (n : Fin 8) (h : ∀ p, encode p i = .cmd w)
    (hm : (cmdRows[n.val]'n.isLt).mnemonic = i.mnemonic) (hw : (cmdRows[n.val]'n.isLt).holds w = true) : Statement i := by
  intro p
  rw [h]
  exact ⟨_, List.getElem_mem n.isLt, hm, hw⟩

theorem nop : Statement .nop := of_row _ _ 0 (fun _ => rfl) rfl (by decide)

theorem feed (b : BitVec 8) : Statement (.feed b) := of_row _ _ 1 (fun _ => rfl) rfl (by revert b; decide +kernel)

theorem check : Statement .check := of_row _ _ 2 (fun _ => rfl) rfl (by decide)

theorem keyb (i : BitVec 4) (b : BitVec 8) : Statement (.keyb i b) :=
  of_row _ _ 3 (fun _ => rfl) rfl (by revert i b; decide +kernel)

theorem setto (t : BitVec 24) : Statement (.setto t) :=
  of_row _ _ 4 (fun _ => rfl) rfl (by
    have h : (0x04#8 ++ t) &&& (0xFF#8 ++ 0#24) = 0x04#8 ++ 0#24 := by
      rw [BitVec.and_append, BitVec.and_zero]
      rfl
    exact decide_eq_true h)

theorem setctl (a : BitVec 1) : Statement (.setctl a) := of_row _ _ 5 (fun _ => rfl) rfl (by revert a; decide)

theorem setie (m : BitVec 3) : Statement (.setie m) := of_row _ _ 6 (fun _ => rfl) rfl (by revert m; decide)

theorem clrirq (m : BitVec 3) : Statement (.clrirq m) := of_row _ _ 7 (fun _ => rfl) rfl (by revert m; decide)

theorem read (a : BitVec 10) : Statement (.read a) := fun _ => ⟨rfl, by revert a; decide +kernel⟩

theorem u32 : Statement .u32 := fun _ => .inl ⟨rfl, rfl⟩

theorem u16 : Statement .u16 := fun _ => .inr (.inl ⟨rfl, rfl⟩)

theorem octet : Statement .octet := fun _ => .inr (.inr ⟨rfl, rfl⟩)

end Sys2Proof.Laws.EncodingRow
end

