-- ==== Sys2Proof/Laws/Stages.lean ====
section
/-! SUPPORT. What each stage of the pipeline leaves when it goes on: the frame checks, the header checks, the envelope. -/

namespace Sys2Proof.Machine

/-- A frame that passes its checks lies inside RAW, and its length byte covers the link header. -/
theorem frameLength_inv (p : Params) (raw : Bytes) (off l : Nat) (h : frameLength p raw off = .ok l) :
    p.mbusIntro + l + p.mbusFooter ≤ raw.length - off ∧ p.mbusFullHdr - p.mbusIntro ≤ l ∧ l < 256 := by
  unfold frameLength at h
  simp only [except_bind_eq_ok, readByte_eq_ok, abortIf_eq_ok, decide_eq_false_iff_not, Nat.not_lt] at h
  obtain ⟨_, _, _, _, _, _, _, _, len0, _, _, _, _, _, _, h1, _, _, _, _, _, h2, h3⟩ := h
  cases h3
  exact ⟨h1, h2, len0.isLt⟩

/-- The declared length shifts the header by 2 bytes or not at all. -/
theorem messageLength_inv (p : Params) (pb : Bytes) (m h : Nat) (e : messageLength p pb = .ok (m, h)) :
    h = 0 ∨ h = p.dlmsHdrExt := by
  unfold messageLength at e
  rw [except_bind_eq_ok] at e
  obtain ⟨m0, _, e⟩ := e
  split at e
  · simp only [except_bind_eq_ok, readByte_eq_ok] at e
    obtain ⟨_, _, _, _, e⟩ := e
    cases e
    exact .inr rfl
  · cases e
    exact .inl rfl

/-- Headers that pass their checks leave the ciphertext and the tag exactly filling PB. -/
theorem parseHeader_inv (p : Params) (pb : Bytes) (hi : HeaderInfo) (h : parseHeader p pb = .ok hi) :
    (pb.length : Int) = p.dlmsHdr + hi.h + hi.clen + p.tagLen ∧ (hi.h = 0 ∨ hi.h = p.dlmsHdrExt) ∧
      p.dlmsMin ≤ pb.length := by
  unfold parseHeader at h
  rw [except_bind_eq_ok] at h
  obtain ⟨_, h0, h⟩ := h
  simp only [except_bind_eq_ok, readByte_eq_ok, abortIf_eq_ok, decide_eq_false_iff_not] at h h0
  obtain ⟨_, _, _, _, _, _, _, _, ⟨m, sh⟩, hm, _, h1, _, h2, _, h3, _, _, _, _, h4⟩ := h
  cases h4
  refine ⟨?_, messageLength_inv p pb m sh hm, by omega⟩
  simp only at h1 h2 h3 ⊢
  omega

/-- An envelope that opens: its headers pass, its key is loaded, its tag verifies, and its plaintext passes the markers. -/
theorem openEnvelope_inv (p : Params) (key : Bytes) (loaded : Bool) (pb pt : Bytes)
    (h : openEnvelope p key loaded pb = .ok pt) :
    ∃ hi, parseHeader p pb = .ok hi ∧ decrypt p key loaded pb hi = .ok pt ∧ checkStructure p pt = .ok () := by
  unfold openEnvelope at h
  simp only [except_bind_eq_ok] at h
  obtain ⟨hi, h1, pt', h2, _, h3, h4⟩ := h
  cases h4
  exact ⟨hi, h1, h2, h3⟩

/-- A decryption that succeeds had a key, and is the cipher's. -/
theorem decrypt_inv (p : Params) (key : Bytes) (loaded : Bool) (pb pt : Bytes) (hi : HeaderInfo)
    (h : decrypt p key loaded pb hi = .ok pt) :
    loaded = true ∧ gcmAD key (nonce p pb hi) (ciphertext p pb hi) (authTag p pb hi) p.tagLen = some pt := by
  unfold decrypt at h
  rw [except_bind_eq_ok] at h
  obtain ⟨_, h1, h2⟩ := h
  split at h2
  · cases h2
  · next hg => cases h2; exact ⟨by simpa using h1, hg⟩

end Sys2Proof.Machine
end

