-- ==== Sys2Proof/Tests/Slice0.lean ====
section
/-! SUPPORT. Tests: the parameter checks refuse, the decoders read the spec's words, one step of each instruction, the known answers
of the ciphers, and for each statement with hypotheses a state and operands that meet them. Expected values are the spec's. -/

namespace Sys2Proof.Tests

open Sys2Proof Sys2Proof.Machine

/-! ## Helpers -/

/-- Bytes written as numbers. -/
def bytes (l : List Nat) : Bytes := l.map (BitVec.ofNat 8)

/-- The state after RESET with some bytes in the buffer. -/
def fed (bs : Bytes) : State :=
  { State.reset with tb := bs.zipIdx.map fun x => (x.2, x.1), count := BitVec.ofNat 32 bs.length }

/-- The same, when the default timeout of 1000 ticks has just passed. -/
def waited (bs : Bytes) : State := { fed bs with now := 1001#32 }

/-- A state with the key 00 01 .. 0F of 95_test_vectors.md loaded. -/
def keyed (s : State) : State :=
  { s with key := #v[0, 1, 2, 3, 4, 5, 6, 7, 8, 9, 10, 11, 12, 13, 14, 15], keyMask := 0xFFFF#16 }

/-- A state in the middle of a decode, with the record decoder's registers as given. -/
def decoding (ph : Phase) (d : Decoding) : State := { State.reset with phase := ph, dec := d }

/-- Registers with a plaintext and a value that starts at its first byte. -/
def value (pt : List Nat) (ct : Option CodeType) : Decoding := { Decoding.empty with pt := bytes pt, ct := ct }

/-- A check of the next state; false where there is none. -/
def after (o : Outcome) (f : State → Bool) : Bool :=
  match o with
  | .next t => f t
  | _ => false

/-- The engine with a buffer of two bytes. -/
def smallParams : LegalParams := ⟨{ Config.defaultParams with bufCap := 2 }, by decide⟩

/-- T1 of 95_test_vectors.md. -/
def t1 : Bytes := bytes
  [ 0x68, 0x5e, 0x5e, 0x68, 0x53, 0xff, 0x00, 0x01, 0x67, 0xdb, 0x08, 0x4b, 0x46, 0x4d, 0x10, 0x20, 0x00, 0x00, 0x01, 0x4e,
    0x21, 0x00, 0x01, 0xe2, 0x40, 0x10, 0xa2, 0xcb, 0x47, 0x32, 0xad, 0xab, 0xcc, 0x55, 0x8d, 0x88, 0x39, 0xad, 0x5a, 0x2c,
    0x92, 0xac, 0xff, 0x6d, 0x29, 0xb3, 0xcb, 0x49, 0x1f, 0xe8, 0xa9, 0x9c, 0x5c, 0xc4, 0x3f, 0xd5, 0x37, 0x8e, 0xa2, 0x53,
    0xb9, 0xe3, 0x9f, 0x6e, 0x81, 0x32, 0x2b, 0x02, 0xc7, 0x3d, 0x11, 0xb7, 0x2a, 0x27, 0x3e, 0xc1, 0xa5, 0x28, 0x99, 0x54,
    0xe4, 0x19, 0x7c, 0xf1, 0x64, 0xf4, 0x72, 0xdf, 0x28, 0x2b, 0x7d, 0x41, 0x9c, 0x24, 0x2f, 0xfe, 0x5d, 0x7c, 0x4b, 0x16 ]

/-! ## The parameter checks (00_scope.md R8, R9): each refuses a set that breaks it -/

theorem test_default_params_legal : Config.defaultParams.legal = true := by decide
theorem test_bufCap_zero_refused : ({ Config.defaultParams with bufCap := 0 } : Params).build = none := by decide
theorem test_bufCap_large_refused : ({ Config.defaultParams with bufCap := 2 ^ 32 } : Params).build = none := by decide
theorem test_timeout_refused : ({ Config.defaultParams with timeoutReset := 2 ^ 24 } : Params).build = none := by decide
theorem test_fullHdr_refused : ({ Config.defaultParams with mbusFullHdr := 3 } : Params).build = none := by decide
theorem test_footer_refused : ({ Config.defaultParams with mbusFooter := 0 } : Params).build = none := by decide
theorem test_lenCorr_refused : ({ Config.defaultParams with dlmsLenCorr := 65536 } : Params).build = none := by decide
theorem test_tagLen_refused :
    ({ Config.defaultParams with tagLen := 11 } : Params).build = none ∧
    ({ Config.defaultParams with tagLen := 17 } : Params).build = none := by decide
theorem test_decStart_refused : ({ Config.defaultParams with decStart := 5 } : Params).build = none := by decide
theorem test_tags_refused : ({ Config.defaultParams with tagU16 := 0x06#8 } : Params).build = none := by decide
theorem test_media_refused : ({ Config.defaultParams with medAbstract := 0x01#8 } : Params).build = none := by decide
theorem test_table_pairs_refused :
    ({ Config.defaultParams with obisTable := Config.obisTable.drop 1 } : Params).build = none ∧
    ({ Config.defaultParams with
        obisTable := ⟨.electricity, 0x34#8, 0x07#8, .voltageL1⟩ :: Config.obisTable.drop 1 } : Params).build = none := by decide
theorem test_power_factor_row_refused :
    ({ Config.defaultParams with
        obisTable := ⟨.electricity, 0x0D#8, 0x07#8, .powerFactor⟩ :: Config.obisTable.drop 1 } : Params).build = none := by decide
theorem test_timeBits_refused : ({ Config.defaultParams with timeBits := 16 } : Params).build = none := by decide
theorem test_intro_refused : ({ Config.defaultParams with mbusIntro := 3 } : Params).build = none := by decide
theorem test_envelope_values_refused :
    ({ Config.defaultParams with dlmsSystLen := 7 } : Params).build = none ∧
    ({ Config.defaultParams with dlmsHdrExt := 1 } : Params).build = none ∧
    ({ Config.defaultParams with dlmsHdr := 15 } : Params).build = none ∧
    ({ Config.defaultParams with dlmsMin := 18 } : Params).build = none := by decide
theorem test_record_values_refused :
    ({ Config.defaultParams with obisCodeLen := 5 } : Params).build = none ∧
    ({ Config.defaultParams with metaSentinel := 0x0E#8 } : Params).build = none ∧
    ({ Config.defaultParams with recBreak := 0 } : Params).build = none ∧
    ({ Config.defaultParams with scalerOff := 4 } : Params).build = none ∧
    ({ Config.defaultParams with scale10 := 0xFD#8 } : Params).build = none ∧
    ({ Config.defaultParams with scale100 := 0xFF#8 } : Params).build = none := by decide
theorem test_cipher_values_refused :
    ({ Config.defaultParams with keyLen := 32 } : Params).build = none ∧
    ({ Config.defaultParams with nonceLen := 16 } : Params).build = none := by decide
theorem test_metaSkip_refused : ({ Config.defaultParams with metaSkip := 256 } : Params).build = none := by decide

/-! ## Decoding: words written out bit by bit from 30_encoding.md R101, R105 and R118 -/

theorem test_decode_nop : decodeCmd 0b00000000_000000000000000000000000#32 = .ok .nop := by decide
theorem test_decode_feed : decodeCmd 0b00000001_0000000000000000_01101000#32 = .ok (.feed 0x68#8) := by decide
theorem test_decode_check : decodeCmd 0b00000010_000000000000000000000000#32 = .ok .check := by decide
theorem test_decode_keyb : decodeCmd 0b00000011_000000000000_1101_10100101#32 = .ok (.keyb 13#4 0xA5#8) := by decide
theorem test_decode_setto : decodeCmd 0b00000100_100000000000000000000010#32 = .ok (.setto 0x800002#24) := by decide
theorem test_decode_setctl : decodeCmd 0b00000101_00000000000000000000000_1#32 = .ok (.setctl 1#1) := by decide
theorem test_decode_setie : decodeCmd 0b00000110_000000000000000000000_101#32 = .ok (.setie 5#3) := by decide
theorem test_decode_clrirq : decodeCmd 0b00000111_000000000000000000000_110#32 = .ok (.clrirq 6#3) := by decide
theorem test_decode_read : decodeRead 0b1000000001_11#12 = .read 0x201#10 := by decide
theorem test_decode_tags :
    decodeTag Config.defaultParams 0b00000110#8 = .ok .u32 ∧ decodeTag Config.defaultParams 0b00010010#8 = .ok .u16 ∧
    decodeTag Config.defaultParams 0b00001001#8 = .ok .octet ∧
    decodeTag Config.defaultParams 0b00001111#8 = .error .unknownTag := by decide
/-- The illegal words of 30_encoding.md R103 and R106: one per row with a reserved bit set, and unassigned opcodes. -/
theorem test_decode_illegal :
    ([0x00000001#32, 0x01000100#32, 0x02000001#32, 0x03001000#32, 0x05000002#32, 0x06000008#32, 0x07000008#32].all fun w =>
      decide (decodeCmd w = .error .reservedBitSet)) = true ∧
    ([0x08000000#32, 0xFF000000#32].all fun w => decide (decodeCmd w = .error .unassignedOpcode)) = true := by decide
theorem test_decodeTableWord :
    decodeTableWord 32 0x03000D05 = some (.keyb 13#4 5#8) ∧ decodeTableWord 16 0x01C = some (.read 7#10) ∧
    decodeTableWord 8 0x12 = some .u16 ∧ decodeTableWord 32 0x08000000 = none := by decide
theorem test_parse_line :
    parseLine ['K', 'E', 'Y', 'B', ' ', '3', ',', ' ', '0', 'x', 'a', '5', ' ', ';', 'k'] = some (.command (.keyb 3#4 0xA5#8)) ∧
    parseLine ['F', 'E', 'E', 'D', ' ', '2', '5', '6'] = none ∧
    parseLine ['W', 'A', 'I', 'T', ' ', '0', 'x', '1', 'F', '0'] = some (.wait 496) ∧
    parseLine ['W', 'A', 'I', 'T', ' ', '1', 'f'] = none := by decide

/-! ## One step of each instruction -/

/-- The first instruction after RESET, placed where the step takes it from. -/
theorem test_fetch_feed :
    after (step (State.reset.withFetchWord 32 0x01000068)) (fun t => t.tb == [(0, 0x68#8)] && t.count == 1#32) = true := by
  decide +kernel
theorem test_fetch_setto : after (step (State.reset.withFetchWord 32 0x04000064)) (fun t => t.timeout == 100#24) = true := by
  decide +kernel
theorem test_fetch_tag :
    after (step (State.reset.withFetchWord 8 0x06)) (fun t => t.phase == .advance && t.dec.dlen == 4 && t.dec.cur == 1) = true := by
  decide +kernel
theorem test_fetch_octet :
    after (step (State.reset.withFetchWord 8 0x09)) (fun t => t.phase == .advance && t.dec.dlen == 0 && t.dec.cur == 2) = true := by
  decide +kernel
/-- 60_exceptions.md R393: an illegal word leaves the telegram alone. -/
theorem test_illegal_word :
    after (takeEvent (.cmd 0x01000168#32) (fed (bytes [1]))) (fun t => t.irqPend == 4#3 && t.count == 1#32 && t.result.res == 0) =
      true := by decide +kernel
theorem test_feed_appends_second :
    after (execFeed 0x22#8 (fed (bytes [0x11]))) (fun t => t.tb == [(0, 0x11#8), (1, 0x22#8)] && t.count == 2#32) = true := by
  decide +kernel
/-- 40_accumulator.md R153: RESULT reads 0x00010102 after the overflow. -/
theorem test_feed_overflow :
    after (execFeed 0x33#8 { fed (bytes [1, 2]) with par := smallParams, now := 9#32 })
      (fun t => t.result.word == 0x00010102#32 && t.count == 0#32 && t.errorCount == 1#32 && t.lastArrival == 9#32) = true := by
  decide +kernel
/-- 95_test_vectors.md: RUN(T1) delivers VoltageL1 233.0 and the timestamp. -/
theorem test_check_delivers_T1 :
    after (execCheck (keyed (waited t1))) (fun t =>
      t.result.word == 1#32 && t.deliverCount == 1#32 && t.irqPend == 1#3 && t.out.valid == 0x2001#16 &&
      t.registerAt 0x040 == 0x0000091A#32 && t.registerAt 0x044 == 1#32 && t.registerAt 0x0C0 == 0x07E50A1F#32 &&
      t.registerAt 0x0C4 == 0x000E2B1E#32) = true := by decide +kernel
/-- The test vector C-NOKEY: the same telegram without a key. -/
theorem test_check_no_key :
    after (execCheck (waited t1)) (fun t => t.result.word == 0x00010302#32 && t.count == 0#32 && t.out.valid == 0#16) = true := by
  decide +kernel
/-- 40_accumulator.md R156: strict, so elapsed = TIMEOUT does not complete; NOW wraps. -/
theorem test_tick_completes_past_timeout :
    after (tickEvent { fed (bytes [1]) with auto := 1#1, timeout := 2#24, now := 0#32, lastArrival := 0xFFFFFFFF#32 })
      (fun t => t.count == 1#32) = true ∧
    after (tickEvent { fed (bytes [1]) with auto := 1#1, timeout := 2#24, now := 1#32, lastArrival := 0xFFFFFFFF#32 })
      (fun t => t.count == 0#32 && t.result.word == 0x00020102#32) = true := by decide +kernel
theorem test_keyb : after (execKeyb 15#4 0xAB#8 State.reset) (fun t => t.key[15] == 0xAB#8 && t.keyMask == 0x8000#16) = true := by
  decide +kernel
theorem test_setctl : after (execSetctl 1#1 State.reset) (fun t => t.auto == 1#1) = true := by decide +kernel
theorem test_setie_irq : after (execSetie 2#3 { State.reset with irqPend := 6#3 }) (fun t => t.irq) = true := by decide +kernel
theorem test_clrirq : after (execClrirq 1#3 { State.reset with irqPend := 7#3 }) (fun t => t.irqPend == 6#3) = true := by
  decide +kernel
/-- 10_state.md R39: STATUS with every flag set. -/
theorem test_read_status :
    after (execRead 0#10 { keyed (fed (bytes [1])) with auto := 1#1, irqPend := 1#3, irqEn := 1#3 })
      (fun t => t.rdData == 0x0000000F#32) = true := by decide +kernel
/-- 20_memory.md R86: a text word has its first byte lowest, and reads 0 past the length. -/
theorem test_read_text :
    after (execRead 0x40#10 { State.reset with
        out := writeOutputs { MeasurementSet.empty with serial := some (bytes [0x31, 0x4B, 0x46]) } })
      (fun t => t.rdData == 0x00464B31#32) = true := by decide +kernel
theorem test_u32_big_endian :
    after (execU32 (decoding .tag (value [0x01, 0x02, 0x03, 0x04] (some .activeEnergyPlus))))
      (fun t => t.dec.ms.num[8] == some ⟨0x01020304#32, 0#2⟩) = true := by decide +kernel
/-- 44_record_decoder.md R302, R303: 0x091A with the scaler 0xFF is 233.0; 0xFE is a divide by 100. -/
theorem test_u16_scaled :
    after (execU16 (decoding .tag (value [0x09, 0x1A, 0x02, 0x02, 0x0F, 0xFF] (some .voltageL1))))
      (fun t => t.dec.ms.num[0] == some ⟨2330#32, 1#2⟩) = true ∧
    after (execU16 (decoding .tag (value [0x00, 0x7B, 0x02, 0x02, 0x0F, 0xFE] (some .currentL1))))
      (fun t => t.dec.ms.num[3] == some ⟨123#32, 2#2⟩) = true := by decide +kernel
theorem test_octet_timestamp :
    after (execOctet (decoding .tag (value [8, 0x07, 0xE5, 0x0A, 0x1F, 0x07, 0x0E, 0x2B, 0x1E] (some .timestamp))))
      (fun t => t.dec.ms.ts == some ⟨2021#16, 10#8, 31#8, 14#8, 43#8, 30#8⟩) = true := by decide +kernel
theorem test_octet_short_timestamp :
    after (execOctet (decoding .tag (value [7, 0x07, 0xE5, 0x0A, 0x1F, 0x07, 0x0E, 0x2B] (some .timestamp))))
      (fun t => t.result.word == 0x00060502#32 && t.phase == .idle) = true := by decide +kernel

/-! ## The ciphers' known answers (43_aes_gcm.md R251, R252, R259) -/

theorem test_aes_fips197_c1 :
    aes (bytes (List.range 16)) (bytes ((List.range 16).map (17 * ·))) =
      bytes [0x69, 0xc4, 0xe0, 0xd8, 0x6a, 0x7b, 0x04, 0x30, 0xd8, 0xcd, 0xb7, 0x80, 0x70, 0xb4, 0xc5, 0x5a] := by decide +kernel
theorem test_key_schedule_fips197_b :
    (keySchedule (bytes [0x2b, 0x7e, 0x15, 0x16, 0x28, 0xae, 0xd2, 0xa6, 0xab, 0xf7, 0x15, 0x88, 0x09, 0xcf, 0x4f, 0x3c])).getD 43 [] =
      bytes [0xb6, 0x63, 0x0c, 0xa6] := by decide +kernel
theorem test_gf128 :
    gf128Mul 0x0388dace60b6a392f328c2b971b2fe78#128 0x66e94bd4ef8a2c3b884cfa59ca342b2e#128 =
      0x5e2ec746917062882c85b0685353deb7#128 := by decide +kernel
/-- TC2 of R259, with the tag cut to 12 bytes; and with one bit of the tag changed. -/
theorem test_gcm_tc2 :
    let c := bytes [0x03, 0x88, 0xda, 0xce, 0x60, 0xb6, 0xa3, 0x92, 0xf3, 0x28, 0xc2, 0xb9, 0x71, 0xb2, 0xfe, 0x78]
    gcmAD (List.replicate 16 0#8) (List.replicate 12 0#8) c
        (bytes [0xab, 0x6e, 0x47, 0xd4, 0x2c, 0xec, 0x13, 0xbd, 0xf5, 0x3a, 0x67, 0xb2]) 12 = some (List.replicate 16 0#8) ∧
    gcmAD (List.replicate 16 0#8) (List.replicate 12 0#8) c
        (bytes [0xab, 0x6e, 0x47, 0xd4, 0x2c, 0xec, 0x13, 0xbd, 0xf5, 0x3a, 0x67, 0xb3]) 12 = none := by decide +kernel

/-! ## Witnesses: for each statement with hypotheses, a state and operands that meet them -/

theorem witness_DecodeOfEncodeIsTheInstruction :
    (Instr.setto 0xFFFFFF#24).wellFormed = true ∧ (Instr.read 0x3FF#10).wellFormed = true ∧ Instr.octet.wellFormed = true := by
  decide
theorem witness_EncodeOfDecodedIsTheEncoding :
    decodeCmd 0x04FFFFFF#32 = .ok (.setto 0xFFFFFF#24) ∧ decodeTag Config.defaultLegal.val 0x09#8 = .ok .octet := by decide
theorem witness_LegalWordsAreTheEightRows :
    (⟨"KEYB", 0xFFFFF000#32, 0x03000000#32⟩ : CmdRow) ∈ cmdRows ∧
    (⟨"KEYB", 0xFFFFF000#32, 0x03000000#32⟩ : CmdRow).holds 0x03000FFF#32 = true := by decide
theorem witness_StepRunsTheDecodedCommand :
    ({ State.reset with inbox := [.cmd 0x02000000#32] } : State).phase = .idle ∧ decodeCmd 0x02000000#32 = .ok .check ∧
    ({ State.reset with inbox := [.read 0xFFF#12] } : State).inbox = .read 0xFFF#12 :: [] ∧
    State.reset.phase = .idle ∧ State.reset.inbox = [] := ⟨rfl, by decide, rfl, rfl, rfl⟩
theorem witness_StepRunsTheDecodedTag :
    (State.reset.withFetchWord 8 0x12).phase = .tag ∧
    (State.reset.withFetchWord 8 0x12).dec.pt[(State.reset.withFetchWord 8 0x12).dec.cur]? = some 0x12#8 ∧
    classify (State.reset.withFetchWord 8 0x12).par.val (State.reset.withFetchWord 8 0x12).dec.code = .ok none ∧
    decodeTag (State.reset.withFetchWord 8 0x12).par.val 0x12#8 = .ok .u16 := by decide +kernel
theorem witness_CycleEventsComeInOrder : (⟨true, true, some 0#32, some 0#12⟩ : Cycle).rst = true := rfl
theorem witness_IllegalWordOnlySetsIllegal : legalCmd 0x08000000#32 = false ∧ legalCmd 0x05000002#32 = false := by decide
theorem witness_ReadReturnsTheWordAndChangesNothing : (0x01C#12).extractLsb' 2 10 = (0x01F#12).extractLsb' 2 10 := by decide
theorem witness_RegisterMapOfSlotsAndTexts :
    [0x02C, 0x03C, 0x0A8, 0x0BC, 0x0D0, 0x0FC, 0x300, 0xFFC].all (fun a =>
      decide (((0x028 < a ∧ a < 0x040) ∨ (0x0A4 < a ∧ a < 0x0C0) ∨ (0x0CC < a ∧ a < 0x100) ∨ 0x300 ≤ a) ∧ a % 4 = 0)) = true := by
  decide
theorem witness_FeedAppendsTheByte :
    State.reset.count.toNat < State.reset.par.val.bufCap ∧
    ({ State.reset with count := 1023#32 } : State).count.toNat < State.reset.par.val.bufCap ∧ Memory.wf State.reset.tb = true := by
  decide
theorem witness_FeedIntoAFullBufferAborts :
    ({ fed (bytes [1, 2]) with par := smallParams } : State).count.toNat = smallParams.val.bufCap := by decide

/-- A state with one byte in the buffer is sound, also when the buffer then has room for one more only. -/
theorem fed_one_sound :
    (fed (bytes [0x68])).BufferSound ∧ ({ fed (bytes [0x68]) with par := smallParams } : State).BufferSound :=
  ⟨⟨rfl, rfl, by decide⟩, ⟨rfl, rfl, by decide⟩⟩

theorem witness_FeedsAccumulateInOrder :
    ({ fed (bytes [0x68]) with par := smallParams } : State).BufferSound ∧
    ({ fed (bytes [0x68]) with par := smallParams } : State).telegram = some [0x68#8] ∧
    [0x68#8].length + [0x05#8].length ≤ smallParams.val.bufCap := ⟨fed_one_sound.2, rfl, by decide⟩
theorem witness_FeedJoinsTheTelegramAndRestartsTheInterval :
    ({ fed (bytes [0x68]) with par := smallParams } : State).BufferSound ∧
    ({ fed (bytes [0x68]) with par := smallParams } : State).count.toNat < smallParams.val.bufCap ∧
    ({ fed (bytes [0x68]) with par := smallParams } : State).telegram = some [0x68#8] := ⟨fed_one_sound.2, by decide, rfl⟩
theorem witness_OnlyMissingEntriesFault :
    let above : State := { State.reset with count := 1025#32 }
    let gap : State := { State.reset with count := 1#32, now := 1001#32 }
    let tick : State := { gap with auto := 1#1 }
    State.reset.par.val.bufCap < above.count.toNat ∧ gap.complete = true ∧ 0 < gap.count.toNat ∧ Memory.read gap.tb 0 = none ∧
    tick.auto = 1#1 ∧ tick.advanceNow.complete = true ∧ 0 < tick.count.toNat ∧ Memory.read tick.tb 0 = none ∧
    exec (.feed 0x68#8) above = .fault .tbOutOfRange ∧ exec .check gap = .fault .tbNoValue ∧
    takeEvent (.cmd 0x01000068#32) above = .fault .tbOutOfRange ∧ takeEvent (.cmd 0x02000000#32) gap = .fault .tbNoValue ∧
    takeEvent .tick tick = .fault .tbNoValue ∧ (decoding .advance Decoding.empty).phase ≠ .idle :=
  ⟨by decide, by decide, by decide, by decide, by decide, by decide, by decide, by decide, rfl, rfl, rfl, rfl, rfl, by decide⟩
theorem witness_CompletionPredicate :
    (2 ^ 32 - 1 : Nat) < 2 ^ 32 ∧
    ({ State.reset with now := 4#32, lastArrival := 5#32 } : State).now.toNat =
      (({ State.reset with now := 4#32, lastArrival := 5#32 } : State).lastArrival.toNat + (2 ^ 32 - 1)) % 2 ^ 32 ∧
    State.reset.now.toNat = (State.reset.lastArrival.toNat + 0) % 2 ^ 32 := by decide
theorem witness_CheckDecodesACompleteTelegram :
    State.reset.complete = false ∧ (fed (bytes [0x68])).BufferSound ∧
    (waited (bytes [0x68])).complete = true ∧ (waited (bytes [0x68])).telegram = some [0x68#8] ∧
    telegramOutcome Config.defaultParams (List.replicate 16 0#8) false [0x68#8] = .error .framingTruncated ∧
    (keyed (waited t1)).complete = true ∧ (keyed (waited t1)).telegram = some t1 ∧
    (match telegramOutcome Config.defaultParams (keyed (waited t1)).key.toList (keyed (waited t1)).keyLoaded t1 with
      | .ok _ => true
      | .error _ => false) = true :=
  ⟨by decide, fed_one_sound.1, by decide, by decide, by decide +kernel, by decide +kernel, by decide +kernel, by decide +kernel⟩
/-- The stages of T1: its frame holds one payload; without a key the envelope fails, with the key it opens. -/
theorem witness_CheckDecodesACompleteTelegram_stages :
    reassemble Config.defaultLegal.val [0x68#8] = .error .framingTruncated ∧
    reassemble Config.defaultLegal.val t1 = .ok ((t1.drop 9).take 89) ∧
    openEnvelope Config.defaultLegal.val (List.replicate 16 0#8) false ((t1.drop 9).take 89) = .error .cryptoNoKey ∧
    (match openEnvelope Config.defaultLegal.val (bytes (List.range 16)) true ((t1.drop 9).take 89) with
      | .ok _ => true
      | .error _ => false) = true := by decide +kernel
theorem witness_EveryTakeEndsOneWay :
    (waited (bytes [0x68])).takeAndDecode = .next ((waited (bytes [0x68])).discardBuffer.abort .framingTruncated) := rfl
theorem witness_TickAdvancesNowThenTests :
    State.reset.auto = 0#1 ∧ ({ State.reset with auto := 1#1 } : State).auto = 1#1 ∧
    ({ State.reset with auto := 1#1 } : State).advanceNow.complete = false ∧
    ({ waited (bytes [0x68]) with auto := 1#1 } : State).advanceNow.complete = true := by decide
theorem witness_AutoCompletesExactlyAfterTheTimeout :
    let s : State := { fed (bytes [0x68]) with auto := 1#1, timeout := 0#24, now := 7#32, lastArrival := 7#32 }
    s.auto = 1#1 ∧ s.count ≠ 0#32 ∧ s.lastArrival = s.now ∧ s.telegram = some [0x68#8] ∧ 0 ≤ s.timeout.toNat := by decide
theorem witness_AbortsArePrecise :
    exec .check (waited (bytes [0x68])) = .next ((waited (bytes [0x68])).discardBuffer.abort .framingTruncated) ∧
    ((waited (bytes [0x68])).discardBuffer.abort .framingTruncated).errorCount ≠ (waited (bytes [0x68])).errorCount ∧
    takeEvent .tick { waited (bytes [0x68]) with auto := 1#1 } =
      .next (({ waited (bytes [0x68]) with auto := 1#1 } : State).advanceNow.discardBuffer.abort .framingTruncated) :=
  ⟨rfl, by decide, rfl⟩
theorem witness_DeliveryReplacesEveryOutput :
    ((({ MeasurementSet.empty with serial := some (List.replicate 255 0x41#8) } : MeasurementSet).serial).getD []).length ≤ 255 ∧
    ((MeasurementSet.empty.name).getD []).length ≤ 255 := by decide +kernel
/-- A TICK is no command. -/
theorem tick_is_no_command (i : Instr) : ¬ Event.IsCommand .tick i := by
  rintro ⟨w, h, -⟩
  cases h

theorem witness_TimeRegistersHaveOnlyTheirWriters :
    takeEvent .tick State.reset = .next State.reset.advanceNow ∧
    takeEvent (.cmd 0x01000068#32) State.reset = .next (State.reset.markArrival.appendByte 0x68#8) ∧
    Event.IsCommand (.cmd 0x01000068#32) (.feed 0x68#8) ∧
    takeEvent (.cmd 0x04000064#32) State.reset = .next (State.reset.setTimeout 100#24) ∧
    Event.IsCommand (.cmd 0x04000064#32) (.setto 100#24) ∧ (∀ b : Byte, ¬ Event.IsCommand .tick (.feed b)) ∧
    (∀ v : BitVec 24, ¬ Event.IsCommand .tick (.setto v)) :=
  ⟨rfl, rfl, ⟨_, rfl, by decide⟩, rfl, ⟨_, rfl, by decide⟩, fun _ => tick_is_no_command _, fun _ => tick_is_no_command _⟩
theorem witness_OnlyKeybAndResetWriteTheKey :
    takeEvent .tick State.reset = .next State.reset.advanceNow ∧
    (∀ (i : BitVec 4) (b : Byte), ¬ Event.IsCommand .tick (.keyb i b)) ∧ Event.tick ≠ .reset :=
  ⟨rfl, fun _ _ => tick_is_no_command _, by decide⟩
theorem witness_EventHasAtMostOneOutcome :
    takeEvent (.cmd 0x02000000#32) (waited (bytes [0x68])) =
      .next ((waited (bytes [0x68])).discardBuffer.abort .framingTruncated) ∧ Event.cmd 0x02000000#32 ≠ .reset :=
  ⟨rfl, by decide⟩
theorem witness_ParametersNeverChange :
    step { State.reset with inbox := [.reset] } = .next ({ State.reset with inbox := [] } : State).resetEvent := rfl
theorem witness_SetctlWritesAutoOnly : (1#1 : BitVec 1) = 1#1 ∧ (0#1 : BitVec 1) = 0#1 := by decide
theorem witness_U32DecodesAValue :
    (value [1, 2, 3, 4] (some .powerFactor)).v + 4 ≤ (value [1, 2, 3, 4] (some .powerFactor)).pt.length ∧
    CodeType.powerFactor.index < 13 ∧ 13 ≤ CodeType.timestamp.index ∧
    (∀ ct : CodeType, (value [1, 2, 3, 4] none).ct = some ct → 13 ≤ ct.index) ∧
    (value [1, 2, 3] none).pt.length < (value [1, 2, 3] none).v + 4 := by decide
theorem witness_U16DecodesAScaledValue :
    (value [1, 2] (some .voltageL1)).v + 2 ≤ (value [1, 2] (some .voltageL1)).pt.length ∧ CodeType.voltageL1.index < 13 ∧
    (∀ ct : CodeType, (value [1, 2] none).ct = some ct → 13 ≤ ct.index) ∧
    (value [1] none).pt.length < (value [1] none).v + 2 := by decide
theorem witness_OctetDecodesAString :
    (value [0] (some .serialNumber)).pt[(value [0] (some .serialNumber)).cur]? = some 0#8 ∧
    (value [0] (some .serialNumber)).cur + 1 + (0#8).toNat ≤ (value [0] (some .serialNumber)).pt.length ∧
    (value [8, 1, 2, 3, 4, 5, 6, 7, 8] (some .timestamp)).cur + 1 + (8#8).toNat ≤ 9 ∧ 8 ≤ (8#8).toNat ∧ (7#8).toNat < 8 ∧
    (∀ n : Byte, (value [2, 1] none).pt[(value [2, 1] none).cur]? = some n →
      (value [2, 1] none).pt.length < (value [2, 1] none).cur + 1 + n.toNat) := by decide +kernel
theorem witness_UnknownTagAborts :
    let s := decoding .tag { value [0x07] none with code := #v[1, 0, 0, 0, 0, 0] }
    let short := decoding .tag { value [0x07] none with cur := 1 }
    let bad := decoding .tag { value [0x07] none with code := #v[2, 0, 0, 0, 0, 0] }
    (s.phase = .tag ∧ s.dec.pt[s.dec.cur]? = some 0x07#8 ∧ classify s.par.val s.dec.code = .ok none ∧
      0x07#8 ≠ s.par.val.tagU32 ∧ 0x07#8 ≠ s.par.val.tagU16 ∧ 0x07#8 ≠ s.par.val.tagOctet) ∧
    (short.phase = .tag ∧ short.dec.pt[short.dec.cur]? = none) ∧
    (bad.phase = .tag ∧ bad.dec.pt[bad.dec.cur]? = some 0x07#8 ∧ bad.dec.code[0] ≠ bad.par.val.medElec ∧
      bad.dec.code[0] ≠ bad.par.val.medAbstract) := by decide
/-- A record's first bytes: a whole header, one cut after its length, and a wrong length byte before a missing code. -/
theorem witness_RecordHeaderChecksInOrder :
    (decoding .header (value [9, 6, 1, 0, 0x20, 7, 0, 0xFF] none)).phase = .header ∧
    recordHeader Config.defaultLegal.val (value [9, 6, 1, 0, 0x20, 7, 0, 0xFF] none) =
      .ok { value [9, 6, 1, 0, 0x20, 7, 0, 0xFF] none with code := #v[1, 0, 0x20, 7, 0, 0xFF], cur := 8 } ∧
    recordHeader Config.defaultLegal.val (value [9, 6, 1] none) = .error .obisTruncated ∧
    recordHeader Config.defaultLegal.val (value [9, 5] none) = .error .obisBadHeaderLen := by decide
theorem witness_ClassificationFollowsTheTable :
    (2#8 ≠ Config.defaultLegal.val.medElec ∧ 2#8 ≠ Config.defaultLegal.val.medAbstract) ∧
    (⟨.electricity, 0x20#8, 0x07#8, .voltageL1⟩ : ObisRow) ∈ Config.defaultLegal.val.obisTable ∧
    (∀ r ∈ Config.defaultLegal.val.obisTable, ¬ (r.medium = .electricity ∧ r.c = 0x60#8 ∧ r.d = 0x01#8)) ∧
    (∀ r ∈ Config.defaultLegal.val.obisTable, ¬ (r.medium = .abstract ∧ r.c = 0x20#8 ∧ r.d = 0x07#8)) := by decide
theorem witness_AdvanceSkipsBreakAndMetadata :
    let ends (c : Nat) (d : Decoding) : Bool :=
      decide (c = d.cur + d.dlen + 2 +
        (if d.pt[d.cur + d.dlen + 2]? = some 0x0F#8 then (decoding .advance d).par.val.metaSkip else 0))
    let below : Decoding := { value [9, 9, 0, 0, 7] none with dlen := 2 }
    let atEnd : Decoding := { value [9, 9, 0, 0] none with dlen := 2 }
    let metaBelow : Decoding := { value [9, 9, 0, 0, 0x0F, 0, 0, 0, 0, 0, 7] none with dlen := 2 }
    let metaAtEnd : Decoding := { value [9, 9, 0, 0, 0x0F, 0, 0, 0, 0, 0] none with dlen := 2 }
    (decoding .advance below).phase = .advance ∧
    (ends 4 below = true ∧ 4 < below.pt.length) ∧ (ends 4 atEnd = true ∧ atEnd.pt.length ≤ 4 ∧ 4 = atEnd.pt.length) ∧
    (ends 10 metaBelow = true ∧ 10 < metaBelow.pt.length) ∧ (ends 10 metaAtEnd = true ∧ 10 = metaAtEnd.pt.length) := by decide
theorem witness_RecordLoopEnds :
    let d := value [9, 6, 1, 0, 0x20, 7, 0, 0xFF, 0x12, 0x09, 0x1A, 2, 2, 0x0F, 0xFF, 0x16, 0x23] none
    decodeRecord Config.defaultLegal.val d =
      .ok { d with
        cur := 19, dlen := 2, v := 9, dt := 0x12#8, ct := some .voltageL1, code := #v[1, 0, 0x20, 7, 0, 0xFF],
        ms := d.ms.storeNum (some .voltageL1) ⟨2330#32, 1#2⟩ } ∧
    ({ d with cur := 17 } : Decoding).pt.length < ({ d with cur := 17 } : Decoding).cur + 1 ∧
    (List.replicate 20 0#8).length ≤ Config.defaultLegal.val.decStart := by decide +kernel
theorem witness_ReassemblyJoinsThePayloads :
    let f : Frame := ⟨bytes [0x53, 0xFF, 0, 1, 0x67], [0xDB#8], [0x99#8]⟩
    let g : Frame := ⟨bytes [0x53, 0xFF, 0, 2, 0x67], [], [0x98#8]⟩
    let e : Frame := ⟨bytes [0x53, 0xFF, 0, 1, 0x67], List.replicate 250 1#8, [0x97#8]⟩
    f.Valid Config.defaultLegal.val ∧ g.Valid Config.defaultLegal.val ∧ e.Valid Config.defaultLegal.val ∧ [f, g] ≠ [] ∧
    [f, g].flatMap Frame.payload = f.payload ∧ [0x68#8, 5#8] ≠ [] ∧
    frameLength Config.defaultLegal.val [0x68#8, 5#8] 0 = .error .framingTruncated := by
  refine ⟨⟨rfl, rfl, by decide⟩, ⟨rfl, rfl, by decide⟩, ⟨rfl, rfl, by decide +kernel⟩, by simp, rfl, by simp, by decide⟩
theorem witness_EnvelopeChecksInOrder :
    let p := Config.defaultLegal.val
    (((t1.drop 9).getD 10 0#8 = p.dlmsLenExt → (78 = 0 ∧ 0 = 2)) ∧ ((t1.drop 9).getD 10 0#8 ≠ p.dlmsLenExt →
      78 = ((t1.drop 9).getD 10 0#8).toNat ∧ 0 = 0)) ∧
    (bytes [0, 0, 0, 0, 0, 0, 0, 0, 0, 0, 0x82, 0x01, 0x02]).getD 10 0#8 = p.dlmsLenExt ∧
    258 = ((bytes [0, 0, 0, 0, 0, 0, 0, 0, 0, 0, 0x82, 0x01, 0x02]).getD 11 0#8).toNat * 256 +
      ((bytes [0, 0, 0, 0, 0, 0, 0, 0, 0, 0, 0x82, 0x01, 0x02]).getD 12 0#8).toNat := by decide
theorem witness_EnvelopeDecryptsThenChecksMarkers :
    parseHeader Config.defaultLegal.val ((t1.drop 9).take 89) = .ok ⟨0, 61⟩ := by decide +kernel
theorem witness_GcmDecryptsWhatASenderEncrypts :
    (List.replicate 16 0#8).length = 16 ∧
    gctr (keySchedule (List.replicate 16 0#8)) (inc32 (preCounter (List.replicate 12 0#8))) (List.replicate 16 0#8) =
      bytes [0x03, 0x88, 0xda, 0xce, 0x60, 0xb6, 0xa3, 0x92, 0xf3, 0x28, 0xc2, 0xb9, 0x71, 0xb2, 0xfe, 0x78] := by decide +kernel
/-- TC1 of 43_aes_gcm.md R259. -/
theorem witness_GcmKeepsLengthAndRejectsOtherTags :
    gcmAD (List.replicate 16 0#8) (List.replicate 12 0#8) []
      (bytes [0x58, 0xe2, 0xfc, 0xce, 0xfa, 0x7e, 0x30, 0x61, 0x36, 0x7f, 0x1d, 0x57, 0xa4, 0xe7, 0x45, 0x5a]) 16 = some [] ∧
    ([] : Bytes) ≠ bytes [0x58, 0xe2, 0xfc, 0xce, 0xfa, 0x7e, 0x30, 0x61, 0x36, 0x7f, 0x1d, 0x57, 0xa4, 0xe7, 0x45, 0x5a] := by
  decide +kernel
/-- The invariant holds of a state that is not the one after RESET, and a step from it goes on. -/
theorem witness_StepKeepsTheInvariant :
    ({ fed (bytes [0x68]) with inbox := [.tick] } : State).Inv ∧
    step { fed (bytes [0x68]) with inbox := [.tick] } = .next (fed (bytes [0x68])).advanceNow := by
  refine ⟨⟨⟨rfl, rfl, by decide⟩, .inl rfl, ?_, ?_⟩, rfl⟩
  · show Outputs.zero.Legal
    refine ⟨by decide, ?_, ?_, fun _ => rfl, fun _ => rfl, fun _ => rfl, ?_, ?_⟩ <;> simp [Outputs.zero]
  · show MeasurementSet.empty.Legal ∧ _
    refine ⟨⟨rfl, ?_, ?_, ?_⟩, by decide, fun _ => rfl⟩ <;> simp [MeasurementSet.empty]
theorem witness_NoReachableStateStops :
    Reachable (State.reset.setInbox ([] ++ [.tick])) ∧ ({ fed (bytes [0x68]) with inbox := [.tick] } : State).Inv :=
  ⟨.present _ _ (.initial _), witness_StepKeepsTheInvariant.1⟩

end Sys2Proof.Tests
end

section
/-! The parameter set (00_scope.md R8, R9): each check of `Params.legal` is the constraint that the spec states, a parameter set can
be built exactly when it meets them all, and no step changes the one the engine was built over. -/

namespace Sys2Proof

/-! ## Each check says its constraint -/

theorem Params.bufCapOk_iff (p : Params) : p.bufCapOk = true ↔ 1 ≤ p.bufCap ∧ p.bufCap ≤ 2 ^ 32 - 1 := by
  simp only [Params.bufCapOk, Bool.and_eq_true, decide_eq_true_eq]
  omega

theorem Params.timeoutResetOk_iff (p : Params) : p.timeoutResetOk = true ↔ p.timeoutReset ≤ 2 ^ 24 - 1 := by
  simp only [Params.timeoutResetOk, decide_eq_true_eq]
  omega

theorem Params.fullHdrOk_iff (p : Params) : p.fullHdrOk = true ↔ p.mbusIntro ≤ p.mbusFullHdr := decide_eq_true_iff

theorem Params.footerOk_iff (p : Params) : p.footerOk = true ↔ 1 ≤ p.mbusFooter := decide_eq_true_iff

theorem Params.lenCorrOk_iff (p : Params) : p.lenCorrOk = true ↔ p.dlmsLenCorr ≤ 65535 := decide_eq_true_iff

theorem Params.tagLenOk_iff (p : Params) : p.tagLenOk = true ↔ 12 ≤ p.tagLen ∧ p.tagLen ≤ 16 := by
  simp only [Params.tagLenOk, Bool.and_eq_true, decide_eq_true_eq]

theorem Params.decStartOk_iff (p : Params) : p.decStartOk = true ↔ 6 ≤ p.decStart := decide_eq_true_iff

theorem Params.tagsOk_iff (p : Params) :
    p.tagsOk = true ↔ p.tagU32 ≠ p.tagOctet ∧ p.tagU16 ≠ p.tagOctet ∧ p.tagU16 ≠ p.tagU32 := by
  simp only [Params.tagsOk, Bool.and_eq_true, decide_eq_true_eq, and_assoc]

theorem Params.mediaOk_iff (p : Params) : p.mediaOk = true ↔ p.medElec ≠ p.medAbstract := decide_eq_true_iff

theorem Params.tablePairsOk_iff (p : Params) :
    p.tablePairsOk = true ↔ p.obisTable.length = 15 ∧ (p.obisTable.map fun r => (r.c, r.d)).Nodup := by
  simp only [Params.tablePairsOk, Bool.and_eq_true, decide_eq_true_eq]

theorem Params.noPowerFactor_iff (p : Params) :
    p.noPowerFactor = true ↔ ∀ r ∈ p.obisTable, r.codeType ≠ .powerFactor := by
  simp only [Params.noPowerFactor, List.all_eq_true, decide_eq_true_eq]

theorem Params.metaSkipOk_iff (p : Params) : p.metaSkipOk = true ↔ p.metaSkip ≤ 255 := decide_eq_true_iff

theorem Params.timeBitsOk_iff (p : Params) : p.timeBitsOk = true ↔ p.timeBits = 32 := decide_eq_true_iff

theorem Params.introOk_iff (p : Params) : p.introOk = true ↔ p.mbusIntro = 4 := decide_eq_true_iff

theorem Params.envelopeOk_iff (p : Params) :
    p.envelopeOk = true ↔ p.dlmsSystLen = 8 ∧ p.dlmsHdrExt = 2 ∧ p.dlmsHdr = 16 ∧ p.dlmsMin = 16 := by
  simp only [Params.envelopeOk, Bool.and_eq_true, decide_eq_true_eq, and_assoc]

theorem Params.recordOk_iff (p : Params) :
    p.recordOk = true ↔ p.obisCodeLen = 6 ∧ p.metaSentinel = 0x0F#8 ∧ p.recBreak = 2 ∧ p.scalerOff = 5 ∧
      p.scale10 = 0xFF#8 ∧ p.scale100 = 0xFE#8 := by
  simp only [Params.recordOk, Bool.and_eq_true, decide_eq_true_eq, and_assoc]

theorem Params.cipherOk_iff (p : Params) : p.cipherOk = true ↔ p.keyLen = 16 ∧ p.nonceLen = 12 := by
  simp only [Params.cipherOk, Bool.and_eq_true, decide_eq_true_eq]

/-- A parameter set is built exactly when it is legal (00_scope.md R9). -/
theorem Params.isSome_build_iff (p : Params) : p.build.isSome = true ↔ p.legal = true := by
  unfold Params.build
  split <;> simp_all

end Sys2Proof

namespace Sys2Proof.Machine

/-! ## The operations that end in one of two ways keep the parameter set -/

/-- The end of a decode, a delivery or an abort, keeps the parameter set. -/
@[simp] theorem State.finish_par (s : State) (r : Except Cause MeasurementSet) : (s.finish r).par = s.par := by
  rcases finish_cases s r with ⟨ms, -, h⟩ | ⟨c, -, h⟩
  · rw [h, State.deliver_par]
  · rw [h, State.abort_par]

/-- A step of the record decoder, which goes on or aborts, keeps the parameter set. -/
@[simp] theorem State.decoderStep_par (s : State) (ph : Phase) (r : Except Cause Decoding) :
    (s.decoderStep ph r).par = s.par := by
  cases r with
  | ok d => exact State.setDecoding_par s ph d
  | error c => exact State.abort_par s c

/-- The step after a value, to another record or to the delivery, keeps the parameter set. -/
@[simp] theorem advanceStep_par (s : State) : (advanceStep s).par = s.par := by
  simp only [advanceStep]
  split
  · exact State.setDecoding_par _ _ _
  · exact State.deliver_par _ _

/-! ## One event, one step -/

/-- An event keeps the parameter set: each of its cases is a composition of updates that do. -/
theorem EventStep.par_eq {s t : State} {e : Event} (h : EventStep s e t) : t.par = s.par := by
  cases h with
  | reset => exact State.resetEvent_par s
  | tickQuiet => exact State.advanceNow_par s
  | tickTake => simp only [State.finish_par, State.discardBuffer_par, State.advanceNow_par]
  | illegal => exact State.illegalCommand_par s
  | nop => rfl
  | feedFull => simp only [State.abort_par, State.markArrival_par]
  | feedRoom => simp only [State.appendByte_par, State.markArrival_par]
  | checkQuiet => rfl
  | checkTake => simp only [State.finish_par, State.discardBuffer_par]
  | keyb _ i b => exact State.writeKey_par s i b
  | setto _ v => exact State.setTimeout_par s v
  | setctl _ v => exact State.setAuto_par s v
  | setie _ v => exact State.setIrqEn_par s v
  | clrirq _ v => exact State.clearIrq_par s v
  | read => exact State.setRdData_par s _

/-- A step keeps the parameter set, whether it takes an event or goes on with a decode. -/
theorem StepCase.par_eq {s t : State} (h : StepCase s t) : t.par = s.par := by
  cases h with
  | quiet => rfl
  | event e es _ _ _ he => exact he.par_eq.trans (State.setInbox_par s es)
  | header => exact State.decoderStep_par s _ _
  | tagAbort c => exact State.abort_par s c
  | tagUnknown => exact State.abort_par s _
  | tagU32 => simp only [State.decoderStep_par, State.setDecoding_par]
  | tagU16 => simp only [State.decoderStep_par, State.setDecoding_par]
  | tagOctet => simp only [State.decoderStep_par, State.setDecoding_par]
  | advance => exact advanceStep_par s

/-! ## The statements -/

/-- Settles O40, by the cases of a step. -/
theorem parametersNeverChange : Obligations.ParametersNeverChange :=
  fun s t h => (step_inv s t h).par_eq

/-- Settles O5: a set is built iff it is legal, and each check of `Params.legal` is its constraint. The checks and the constraints
stand in the same order but for the PowerFactor clause, which the statement has after META_SKIP's. -/
theorem illegalParametersAreRefused : Obligations.IllegalParametersAreRefused := by
  intro p
  rw [Params.isSome_build_iff, Params.legal_iff]
  simp only [Params.bufCapOk_iff, Params.timeoutResetOk_iff, Params.fullHdrOk_iff, Params.footerOk_iff, Params.lenCorrOk_iff,
    Params.tagLenOk_iff, Params.decStartOk_iff, Params.tagsOk_iff, Params.mediaOk_iff, Params.tablePairsOk_iff,
    Params.noPowerFactor_iff, Params.metaSkipOk_iff, Params.timeBitsOk_iff, Params.introOk_iff, Params.envelopeOk_iff,
    Params.recordOk_iff, Params.cipherOk_iff, and_assoc]
  rw [and_left_comm (a := ∀ r ∈ p.obisTable, r.codeType ≠ .powerFactor)]

end Sys2Proof.Machine
end

section
/-! The invariant (10_state.md R25, R32, R34, R35): it holds right after RESET, and every step keeps it. What a decode builds is
followed from record to record, then through the delivery to the output registers; each operation of the engine is then one rule. -/

namespace Sys2Proof.Machine

/-! ## The MeasurementSet -/

theorem MeasurementSet.empty_legal : MeasurementSet.empty.Legal :=
  ⟨rfl, by simp [MeasurementSet.empty], by simp [MeasurementSet.empty], by simp [MeasurementSet.empty]⟩

/-- Only PowerFactor has slot 12. -/
theorem CodeType.index_ne_twelve {k : CodeType} (hk : k ≠ .powerFactor) : k.index ≠ 12 := by
  cases k with
  | powerFactor => exact absurd rfl hk
  | _ => decide

/-- A numeric value with a scale code of R303 keeps the set legal. -/
theorem MeasurementSet.Legal.storeNum {ms : MeasurementSet} (h : ms.Legal) {ct : Option CodeType} (hct : ct ≠ some .powerFactor)
    {r : Reading} (hr : r.scale ≠ 3#2) : (ms.storeNum ct r).Legal := by
  obtain ⟨hpf, hscale, hserial, hname⟩ := h
  cases ct with
  | none => exact ⟨hpf, hscale, hserial, hname⟩
  | some k =>
    unfold MeasurementSet.storeNum
    by_cases hk : k.index < 13
    · have hne : k.index ≠ 12 := CodeType.index_ne_twelve fun e => hct (e ▸ rfl)
      simp only [hk, dite_true]
      refine ⟨by simp [hne, hpf], fun j x hx => ?_, hserial, hname⟩
      simp only [Fin.getElem_fin, Vector.getElem_set] at hx
      split at hx
      · cases hx; exact hr
      · exact hscale j x hx
    · simp only [hk, dite_false]
      exact ⟨hpf, hscale, hserial, hname⟩

/-- An octet string of at most 255 bytes keeps the set legal. -/
theorem MeasurementSet.Legal.storeOctets {ms ms' : MeasurementSet} (h : ms.Legal) {ct : Option CodeType} {val : Bytes}
    (hval : val.length ≤ 255) (hs : storeOctets ms ct val = .ok ms') : ms'.Legal := by
  obtain ⟨hpf, hscale, hserial, hname⟩ := h
  rcases storeOctets_inv ms ms' ct val hs with ⟨-, t, -, rfl⟩ | ⟨-, rfl⟩ | ⟨-, rfl⟩ | rfl
  · exact ⟨hpf, hscale, hserial, hname⟩
  · exact ⟨hpf, hscale, fun t ht => by cases ht; exact hval, hname⟩
  · exact ⟨hpf, hscale, hserial, fun t ht => by cases ht; exact hval⟩
  · exact ⟨hpf, hscale, hserial, hname⟩

/-! ## The record decoder -/

/-- What the record decoder's registers keep throughout a decode: a legal set, and a code-type other than PowerFactor. -/
def Decoding.Legal (d : Decoding) : Prop := d.ms.Legal ∧ d.ct ≠ some .powerFactor

theorem Decoding.empty_legal : Decoding.empty.Legal := ⟨MeasurementSet.empty_legal, by decide⟩

/-- The decoder's part of the invariant: legal registers, empty between events. -/
theorem State.decoderSound_iff (s : State) :
    s.DecoderSound ↔ s.dec.Legal ∧ (s.phase = .idle → s.dec = Decoding.empty) :=
  and_assoc.symm

theorem Decoding.Legal.recordHeader {p : Params} {d d' : Decoding} (h : d.Legal) (hr : recordHeader p d = .ok d') : d'.Legal := by
  obtain ⟨code, rfl, -⟩ := recordHeader_inv p d d' hr
  exact h

theorem Decoding.Legal.fetchTag {p : LegalParams} {d d' : Decoding} (h : d.Legal) (hf : fetchTag p.val d = .ok d') :
    d'.Legal := by
  obtain ⟨dt, ct, -, hct, rfl⟩ := fetchTag_inv p.val d d' hf
  exact ⟨h.1, classify_ne_powerFactor p d.code ct hct⟩

theorem Decoding.Legal.u32Value {d d' : Decoding} (h : d.Legal) (hv : u32Value d = .ok d') : d'.Legal := by
  obtain ⟨x, -, rfl⟩ := u32Value_inv d d' hv
  exact ⟨h.1.storeNum h.2 (by decide : (0#2 : BitVec 2) ≠ 3#2), h.2⟩

theorem Decoding.Legal.u16Value {p : Params} {d d' : Decoding} (h : d.Legal) (hv : u16Value p d = .ok d') : d'.Legal := by
  obtain ⟨x, -, rfl⟩ := u16Value_inv p d d' hv
  exact ⟨h.1.storeNum h.2 (scaleCode_ne_three p d.pt d.v), h.2⟩

theorem Decoding.Legal.octetValue {d d' : Decoding} (h : d.Legal) (hv : octetValue d = .ok d') : d'.Legal := by
  obtain ⟨n, ms, -, hs, rfl⟩ := octetValue_inv d d' hv
  have hn : n.toNat ≤ 255 := Nat.le_of_lt_succ n.isLt
  exact ⟨h.1.storeOctets ((slice_length_le d.pt (d.cur + 1) n.toNat).trans hn) hs, h.2⟩

theorem Decoding.Legal.tagOperation {p : Params} {d d' : Decoding} (h : d.Legal) (ho : tagOperation p d = .ok d') : d'.Legal := by
  rcases tagOperation_inv p d d' ho with ⟨-, hv⟩ | ⟨-, hv⟩ | ⟨-, hv⟩
  · exact h.u32Value hv
  · exact h.u16Value hv
  · exact h.octetValue hv

/-- The advance moves the cursor only. -/
theorem Decoding.Legal.recordAdvance {p : Params} {d : Decoding} (h : d.Legal) : (recordAdvance p d).Legal := h

/-- One pass of the loop of R281 keeps the registers legal. -/
theorem Decoding.Legal.decodeRecord {p : LegalParams} {d d' : Decoding} (h : d.Legal) (hr : decodeRecord p.val d = .ok d') :
    d'.Legal := by
  simp only [Machine.decodeRecord, except_bind_eq_ok] at hr
  obtain ⟨d1, h1, d2, h2, d3, h3, h4⟩ := hr
  cases h4
  exact (((h.recordHeader h1).fetchTag h2).tagOperation h3).recordAdvance

theorem Decoding.Legal.recordLoop {p : LegalParams} {passes : Nat} {d : Decoding} {ms : MeasurementSet} (h : d.Legal)
    (hr : recordLoop p.val passes d = .ok ms) : ms.Legal := by
  induction passes generalizing d with
  | zero => cases hr
  | succ passes ih =>
    rw [Machine.recordLoop, except_bind_eq_ok] at hr
    obtain ⟨d', hd, hr⟩ := hr
    have hd' : d'.Legal := h.decodeRecord hd
    split at hr
    · exact ih hd' hr
    · cases hr; exact hd'.1

/-- Every set that a decode delivers is legal. -/
theorem State.decodeOf_legal {s : State} {raw : Bytes} {ms : MeasurementSet} (h : s.decodeOf raw = .ok ms) : ms.Legal := by
  obtain ⟨pb, -, pt, -, hd⟩ := (telegramOutcome_eq_ok _ _ _ _ _).1 h
  exact Decoding.Legal.recordLoop (d := startDecoding s.par.val pt) Decoding.empty_legal hd

/-! ## The output registers -/

/-- OUT_VALID bit k of a numeric slot says whether the set has a reading there. -/
theorem validBits_num (ms : MeasurementSet) (k : Fin 13) : ms.validBits.getLsbD k.val = ms.num[k].isSome := by
  rw [validBits_getLsbD ms k.val (by omega)]
  fin_cases k <;> rfl

theorem validBits_ts (ms : MeasurementSet) : ms.validBits.getLsbD 13 = ms.ts.isSome := validBits_getLsbD ms 13 (by decide)

theorem validBits_serial (ms : MeasurementSet) : ms.validBits.getLsbD 14 = ms.serial.isSome := validBits_getLsbD ms 14 (by decide)

theorem validBits_name (ms : MeasurementSet) : ms.validBits.getLsbD 15 = ms.name.isSome := validBits_getLsbD ms 15 (by decide)

/-- A slot without a reading is written as 0. -/
theorem slot_of_none {v : Vector (Option Reading) 13} {k : Fin 13} (h : v[k] = none) :
    (slotVals v)[k] = 0#32 ∧ (slotScales v)[k] = 0#2 := by
  have hs := slot_getElem v k
  rw [h] at hs
  exact Prod.mk.inj hs

/-- A slot with a reading is written with its value and its scale code. -/
theorem slot_of_some {v : Vector (Option Reading) 13} {k : Fin 13} {r : Reading} (h : v[k] = some r) :
    (slotVals v)[k] = r.val ∧ (slotScales v)[k] = r.scale := by
  have hs := slot_getElem v k
  rw [h] at hs
  exact Prod.mk.inj hs

/-- A text array is 0 from the length that its length register holds. -/
theorem padText_past_length {t : Bytes} (ht : t.length ≤ 255) {i : Fin 255} (hi : (BitVec.ofNat 8 t.length).toNat ≤ i.val) :
    (padText t)[i] = 0#8 := by
  rw [BitVec.toNat_ofNat, Nat.mod_eq_of_lt (by omega)] at hi
  rw [Fin.getElem_fin, padText_getElem t i.val i.isLt, List.getD_eq_default _ _ hi]

/-- A text that is absent counts as the empty one, so a bound on the texts there are bounds the text written. -/
theorem length_getD_nil_le {o : Option Bytes} (h : ∀ t, o = some t → t.length ≤ 255) : (o.getD []).length ≤ 255 := by
  cases o with
  | none => exact Nat.zero_le _
  | some t => exact h t rfl

/-- The delivery of a legal set leaves legal output registers. -/
theorem writeOutputs_legal {ms : MeasurementSet} (h : ms.Legal) : (writeOutputs ms).Legal := by
  obtain ⟨hpf, hscale, hserial, hname⟩ := h
  refine ⟨?_, fun k => ?_, fun k hk => ?_, fun ht => ?_, fun hs => ?_, fun hn => ?_, fun i => ?_, fun i => ?_⟩
  · exact (validBits_num ms 12).trans (by rw [show ms.num[(12 : Fin 13)] = none from hpf]; rfl)
  · show (slotScales ms.num)[k] ≠ 3#2
    cases hk : ms.num[k] with
    | none => rw [(slot_of_none hk).2]; decide
    | some r => rw [(slot_of_some hk).2]; exact hscale k r hk
  · exact slot_of_none (by simpa using (validBits_num ms k).symm.trans hk)
  · have : ms.ts = none := by simpa using (validBits_ts ms).symm.trans ht
    simp only [writeOutputs, this, Option.getD_none]
  · have : ms.serial = none := by simpa using (validBits_serial ms).symm.trans hs
    simp only [writeOutputs, this, Option.getD_none, List.length_nil]
  · have : ms.name = none := by simpa using (validBits_name ms).symm.trans hn
    simp only [writeOutputs, this, Option.getD_none, List.length_nil]
  · exact padText_past_length (length_getD_nil_le hserial)
  · exact padText_past_length (length_getD_nil_le hname)

theorem Outputs.zero_legal : Outputs.zero.Legal := by
  refine ⟨rfl, ?_, ?_, fun _ => rfl, fun _ => rfl, fun _ => rfl, ?_, ?_⟩ <;> simp [Outputs.zero]

/-! ## The invariant, operation by operation -/

/-- The machine over a legal parameter set starts in the invariant. -/
theorem State.initial_inv (p : LegalParams) : (State.initial p).Inv where
  buffer := ⟨rfl, rfl, Nat.zero_le _⟩
  result := .inl rfl
  outputs := Outputs.zero_legal
  decoder := (State.decoderSound_iff _).2 ⟨Decoding.empty_legal, fun _ => rfl⟩

/-- An empty buffer is sound. -/
theorem State.bufferSound_of_empty {s : State} (htb : s.tb = []) (hc : s.count = 0#32) : s.BufferSound := by
  simp [State.BufferSound, htb, hc]

/-- While there is room, one byte more leaves the buffer sound: COUNT does not wrap (R9, R25). -/
theorem State.BufferSound.appendByte {s : State} (h : s.BufferSound) (hroom : s.count.toNat < s.par.val.bufCap) (b : Byte) :
    (s.appendByte b).BufferSound := by
  obtain ⟨hwf, hcells, -⟩ := h
  have hcap := (Params.bufCap_of_legal s.par).2
  have hcount : (s.count + 1#32).toNat = s.count.toNat + 1 := by
    rw [BitVec.toNat_add, BitVec.toNat_ofNat]
    omega
  rw [List.range_eq_range'] at hcells
  have happend := Memory.map_fst_write_append s.tb 0 s.count.toNat b hcells
  rw [Nat.zero_add] at happend
  refine ⟨Memory.wf_write s.tb s.count.toNat b hwf, ?_, ?_⟩
  · rw [State.appendByte_count, hcount, List.range_eq_range']
    exact happend
  · rw [State.appendByte_count, hcount]
    exact hroom

theorem State.Inv.discardBuffer {s : State} (h : s.Inv) : s.discardBuffer.Inv :=
  ⟨State.bufferSound_of_empty rfl rfl, h.result, h.outputs, h.decoder⟩

theorem State.Inv.abort {s : State} (h : s.Inv) (c : Cause) : (s.abort c).Inv where
  buffer := State.bufferSound_of_empty rfl rfl
  result := .inr (.inr ⟨c, rfl⟩)
  outputs := h.outputs
  decoder := (State.decoderSound_iff _).2 ⟨Decoding.empty_legal, fun _ => rfl⟩

theorem State.Inv.deliver {s : State} (h : s.Inv) {ms : MeasurementSet} (hms : ms.Legal) : (s.deliver ms).Inv where
  buffer := h.buffer
  result := .inr (.inl rfl)
  outputs := writeOutputs_legal hms
  decoder := (State.decoderSound_iff _).2 ⟨Decoding.empty_legal, fun _ => rfl⟩

/-- The take and the decode keep the invariant, whatever state's key decided the decode. -/
theorem State.Inv.takeAndFinish {s : State} (h : s.Inv) (u : State) (raw : Bytes) :
    (s.discardBuffer.finish (u.decodeOf raw)).Inv := by
  rcases finish_cases s.discardBuffer (u.decodeOf raw) with ⟨ms, hr, he⟩ | ⟨c, -, he⟩
  · rw [he]; exact h.discardBuffer.deliver (State.decodeOf_legal hr)
  · rw [he]; exact h.discardBuffer.abort c

/-- In the middle of a decode, legal registers are all the invariant asks of them. -/
theorem State.Inv.setDecoding {s : State} (h : s.Inv) {ph : Phase} {d : Decoding} (hph : ph ≠ .idle) (hd : d.Legal) :
    (s.setDecoding ph d).Inv :=
  ⟨h.buffer, h.result, h.outputs, (State.decoderSound_iff _).2 ⟨hd, fun e => absurd e hph⟩⟩

/-- A step of the record decoder that leaves legal registers keeps the invariant. -/
theorem State.Inv.decoderStep {s : State} (h : s.Inv) {ph : Phase} {r : Except Cause Decoding} (hph : ph ≠ .idle)
    (hr : ∀ d, r = .ok d → d.Legal) : (s.decoderStep ph r).Inv := by
  cases r with
  | ok d => exact h.setDecoding hph (hr d rfl)
  | error c => exact h.abort c

theorem State.Inv.decLegal {s : State} (h : s.Inv) : s.dec.Legal := ((State.decoderSound_iff s).1 h.decoder).1

theorem State.Inv.advanceStep {s : State} (h : s.Inv) : (advanceStep s).Inv := by
  have hd : (recordAdvance s.par.val s.dec).Legal := h.decLegal.recordAdvance
  simp only [Machine.advanceStep]
  split
  · exact h.setDecoding (by decide) hd
  · exact h.deliver hd.1

/-! ## One event, one step -/

/-- An event keeps the invariant. The configuration commands, TICK alone and READ write no element that it speaks of. -/
theorem EventStep.inv {s t : State} {e : Event} (h : EventStep s e t) (hs : s.Inv) : t.Inv := by
  have marked : s.markArrival.Inv := ⟨hs.buffer, hs.result, hs.outputs, hs.decoder⟩
  have ticked : s.advanceNow.Inv := ⟨hs.buffer, hs.result, hs.outputs, hs.decoder⟩
  cases h with
  | reset =>
    have h0 := State.initial_inv s.par
    exact ⟨h0.buffer, h0.result, h0.outputs, h0.decoder⟩
  | tickQuiet => exact ticked
  | tickTake raw => exact ticked.takeAndFinish s raw
  | checkTake _ raw => exact hs.takeAndFinish s raw
  | feedFull => exact marked.abort _
  | feedRoom _ b _ hroom => exact ⟨State.BufferSound.appendByte marked.buffer hroom b, hs.result, hs.outputs, hs.decoder⟩
  | nop | checkQuiet => exact hs
  | illegal | keyb | setto | setctl | setie | clrirq | read => exact ⟨hs.buffer, hs.result, hs.outputs, hs.decoder⟩

/-- A step keeps the invariant, whether it takes an event or goes on with a decode. -/
theorem StepCase.inv {s t : State} (h : StepCase s t) (hs : s.Inv) : t.Inv := by
  have fetched : ∀ {d}, fetchTag s.par.val s.dec = .ok d → d.Legal := hs.decLegal.fetchTag
  have atTag : ∀ {d}, fetchTag s.par.val s.dec = .ok d → (s.setDecoding .tag d).Inv :=
    fun hf => hs.setDecoding (by decide) (fetched hf)
  cases h with
  | quiet => exact hs
  | event e es _ _ _ he => exact he.inv ⟨hs.buffer, hs.result, hs.outputs, hs.decoder⟩
  | header => exact hs.decoderStep (by decide) fun _ => hs.decLegal.recordHeader
  | tagAbort c => exact hs.abort c
  | tagUnknown => exact hs.abort _
  | tagU32 _ _ hf => exact (atTag hf).decoderStep (by decide) fun _ => (fetched hf).u32Value
  | tagU16 _ _ hf => exact (atTag hf).decoderStep (by decide) fun _ => (fetched hf).u16Value
  | tagOctet _ _ hf => exact (atTag hf).decoderStep (by decide) fun _ => (fetched hf).octetValue
  | advance => exact hs.advanceStep

/-! ## The statements -/

/-- Settles O58. -/
theorem invariantHoldsAfterReset : Obligations.InvariantHoldsAfterReset := State.initial_inv

/-- Settles O59, by the cases of a step. -/
theorem stepKeepsTheInvariant : Obligations.StepKeepsTheInvariant :=
  fun s t hs h => (step_inv s t h).inv hs

end Sys2Proof.Machine
end

section
/-! The step and its events (10_state.md R20, R21): what a step takes and runs, when an event stops, and which events write the time
registers, the key and, at RESET, everything. -/

namespace Sys2Proof.Machine

/-! ## What a step and an event run -/

/-- Between events, a step takes the oldest event presented. -/
theorem step_of_cons {s : State} {e : Event} {es : List Event} (hp : s.phase = .idle) (hi : s.inbox = e :: es) :
    step s = takeEvent e (s.setInbox es) := by
  simp only [step, nextAction, hp, hi]
  rfl

/-- With no event presented, a step between events holds the state. -/
theorem step_of_nil {s : State} (hp : s.phase = .idle) (hi : s.inbox = []) : step s = .next s := by
  simp only [step, nextAction, hp, hi]

/-- A command word that decodes runs its instruction. -/
theorem takeEvent_cmd {w : BitVec 32} {i : Instr} (h : decodeCmd w = .ok i) (s : State) : takeEvent (.cmd w) s = exec i s := by
  simp only [takeEvent, eventAction, h]

/-- A command word of no row is reported, and the engine goes on. -/
theorem takeEvent_illegal {w : BitVec 32} {r : DecodeReject} (h : decodeCmd w = .error r) (s : State) :
    takeEvent (.cmd w) s = .next s.illegalCommand := by
  simp only [takeEvent, eventAction, h]

/-- A read address runs READ, with its two low bits ignored. -/
theorem takeEvent_read (a : BitVec 12) (s : State) : takeEvent (.read a) s = exec (.read (a.extractLsb' 2 10)) s := rfl

theorem takeEvent_tick (s : State) : takeEvent .tick s = tickEvent s := rfl

/-- A command word is a command by what it decodes to. -/
@[simp] theorem Event.isCommand_cmd (w : BitVec 32) (i : Instr) : (Event.cmd w).IsCommand i ↔ decodeCmd w = .ok i :=
  ⟨fun ⟨_, hw, h⟩ => by cases hw; exact h, fun h => ⟨w, rfl, h⟩⟩

/-- Inside a decode every step goes on: what fails there is an abort. -/
theorem step_next_of_decoding {s : State} (hp : s.phase ≠ .idle) : ∃ t, step s = .next t := by
  simp only [step, nextAction]
  cases hph : s.phase with
  | idle => exact absurd hph hp
  | header => exact ⟨_, rfl⟩
  | advance => exact ⟨_, rfl⟩
  | tag =>
    simp only [tagAction]
    cases fetchTag s.par.val s.dec with
    | error c => exact ⟨_, rfl⟩
    | ok d =>
      simp only
      cases hd : decodeTag s.par.val d.dt with
      | error r => exact ⟨_, rfl⟩
      | ok i => rcases decodeTag_cases _ _ _ hd with ⟨rfl, -⟩ | ⟨rfl, -⟩ | ⟨rfl, -⟩ <;> exact ⟨_, rfl⟩

/-! ## When an event stops -/

/-- A take is never refused. -/
theorem takeAndDecode_ne_refused (s : State) (r : Refusal) : s.takeAndDecode ≠ .refused r := by
  unfold State.takeAndDecode
  cases s.telegram <;> nofun

/-- FEED faults exactly where COUNT is above BUF_CAP. -/
theorem execFeed_eq_fault (b : BitVec 8) (s : State) (f : Fault) :
    execFeed b s = .fault f ↔ f = .tbOutOfRange ∧ s.par.val.bufCap < s.count.toNat := by
  unfold execFeed
  simp only
  split
  · next hfull => simp [hfull]
  · split
    · next hover => simp [hover, eq_comm]
    · next hroom => simp [hroom]

/-- CHECK faults exactly where it takes a telegram that is not there. -/
theorem execCheck_eq_fault (s : State) (f : Fault) :
    execCheck s = .fault f ↔ s.complete = true ∧ f = .tbNoValue ∧ s.telegram = none := by
  unfold execCheck
  split
  · next hc => simp [hc, takeAndDecode_eq_fault]
  · next hc => simp [hc]

/-- TICK faults exactly where it takes a telegram that is not there. -/
theorem tickEvent_eq_fault (s : State) (f : Fault) :
    tickEvent s = .fault f ↔ (s.auto = 1#1 ∧ s.advanceNow.complete = true) ∧ f = .tbNoValue ∧ s.telegram = none := by
  have htelegram : s.advanceNow.telegram = s.telegram := rfl
  unfold tickEvent
  simp only
  split
  · next hc => rw [takeAndDecode_eq_fault, htelegram, ← State.advanceNow_auto s, and_iff_right hc]
  · next hc => exact ⟨nofun, fun h => absurd h.1 hc⟩

/-- An instruction faults exactly in the two cases of FEED and CHECK. -/
theorem exec_eq_fault (i : Instr) (s : State) (f : Fault) :
    exec i s = .fault f ↔
      ((∃ b, i = .feed b) ∧ f = .tbOutOfRange ∧ s.par.val.bufCap < s.count.toNat) ∨
      (i = .check ∧ s.complete = true ∧ f = .tbNoValue ∧ s.telegram = none) := by
  cases i with
  | feed b => exact (execFeed_eq_fault b s f).trans (by simp)
  | check => exact (execCheck_eq_fault s f).trans (by simp)
  | _ => exact ⟨nofun, by simp⟩

/-- No instruction is refused. -/
theorem exec_ne_refused (i : Instr) (s : State) (r : Refusal) : exec i s ≠ .refused r := by
  cases i with
  | feed b =>
    show execFeed b s ≠ .refused r
    unfold execFeed
    simp only
    split
    · nofun
    · split <;> nofun
  | check =>
    show execCheck s ≠ .refused r
    unfold execCheck
    split
    · exact takeAndDecode_ne_refused s r
    · nofun
  | _ => nofun

/-- No event is refused. -/
theorem takeEvent_ne_refused (e : Event) (s : State) (r : Refusal) : takeEvent e s ≠ .refused r := by
  cases e with
  | reset => nofun
  | read a => rw [takeEvent_read]; exact exec_ne_refused _ s r
  | tick =>
    rw [takeEvent_tick]
    simp only [tickEvent]
    split
    · exact takeAndDecode_ne_refused s.advanceNow r
    · nofun
  | cmd w =>
    cases hd : decodeCmd w with
    | ok i => rw [takeEvent_cmd hd]; exact exec_ne_refused i s r
    | error _ => rw [takeEvent_illegal hd]; nofun

/-- An event faults only as FEED, CHECK or TICK does. -/
theorem fault_of_takeEvent {e : Event} {s : State} {f : Fault} (h : takeEvent e s = .fault f) :
    (f = .tbOutOfRange ∧ (∃ b : Byte, e.IsCommand (.feed b)) ∧ s.par.val.bufCap < s.count.toNat) ∨
    (f = .tbNoValue ∧ ((e.IsCommand .check ∧ s.complete = true) ∨
        (e = .tick ∧ s.auto = 1#1 ∧ s.advanceNow.complete = true)) ∧ s.telegram = none) := by
  cases e with
  | reset => cases h
  | read a => cases h
  | tick =>
    obtain ⟨hc, hf, ht⟩ := (tickEvent_eq_fault s f).1 h
    exact .inr ⟨hf, .inr ⟨rfl, hc⟩, ht⟩
  | cmd w =>
    cases hd : decodeCmd w with
    | error _ => rw [takeEvent_illegal hd] at h; cases h
    | ok i =>
      rw [takeEvent_cmd hd] at h
      rcases (exec_eq_fault i s f).1 h with ⟨⟨b, rfl⟩, hf, hcap⟩ | ⟨rfl, hc, hf, ht⟩
      · exact .inl ⟨hf, ⟨b, (Event.isCommand_cmd w _).2 hd⟩, hcap⟩
      · exact .inr ⟨hf, .inl ⟨(Event.isCommand_cmd w _).2 hd, hc⟩, ht⟩

/-! ## What the end of a decode leaves unchanged -/

@[simp] theorem State.finish_now (s : State) (r : Except Cause MeasurementSet) : (s.finish r).now = s.now := by
  cases r <;> rfl

@[simp] theorem State.finish_lastArrival (s : State) (r : Except Cause MeasurementSet) :
    (s.finish r).lastArrival = s.lastArrival := by
  cases r <;> rfl

@[simp] theorem State.finish_timeout (s : State) (r : Except Cause MeasurementSet) : (s.finish r).timeout = s.timeout := by
  cases r <;> rfl

@[simp] theorem State.finish_key (s : State) (r : Except Cause MeasurementSet) : (s.finish r).key = s.key := by
  cases r <;> rfl

@[simp] theorem State.finish_keyMask (s : State) (r : Except Cause MeasurementSet) : (s.finish r).keyMask = s.keyMask := by
  cases r <;> rfl

/-! ## The writers of a register -/

section Writers

variable {s t : State} {e : Event}

/-- TICK advances NOW, whether it takes a telegram or not. -/
theorem EventStep.now_of_tick (h : EventStep s .tick t) : t.now = s.now + 1#32 := by
  cases h with
  | tickQuiet => rfl
  | tickTake => simp

/-- Only TICK and RESET write NOW. -/
theorem EventStep.now_eq (h : EventStep s e t) (htick : e ≠ .tick) (hreset : e ≠ .reset) : t.now = s.now := by
  cases h with
  | reset => exact absurd rfl hreset
  | tickQuiet | tickTake => exact absurd rfl htick
  | checkTake => simp
  | _ => rfl

/-- FEED marks the arrival, whether there is room or not. -/
theorem lastArrival_of_feed {b : BitVec 8} (hfeed : e.IsCommand (.feed b)) (h : takeEvent e s = .next t) :
    t.lastArrival = s.now := by
  obtain ⟨w, rfl, hd⟩ := hfeed
  rw [takeEvent_cmd hd] at h
  rcases (execFeed_eq_next b s t).1 h with ⟨-, rfl⟩ | ⟨-, rfl⟩ <;> rfl

/-- Only FEED and RESET write LAST_ARRIVAL. -/
theorem EventStep.lastArrival_eq (h : EventStep s e t) (hfeed : ∀ b, ¬ e.IsCommand (.feed b)) (hreset : e ≠ .reset) :
    t.lastArrival = s.lastArrival := by
  cases h with
  | reset => exact absurd rfl hreset
  | feedFull w b hd | feedRoom w b hd => exact absurd ((Event.isCommand_cmd w _).2 hd) (hfeed b)
  | tickTake | checkTake => simp
  | _ => rfl

/-- SETTO writes its operand. -/
theorem timeout_of_setto {v : BitVec 24} (hsetto : e.IsCommand (.setto v)) (h : takeEvent e s = .next t) : t.timeout = v := by
  obtain ⟨w, rfl, hd⟩ := hsetto
  rw [takeEvent_cmd hd] at h
  cases h
  exact State.setTimeout_timeout s v

/-- Only SETTO and RESET write TIMEOUT. -/
theorem EventStep.timeout_eq (h : EventStep s e t) (hsetto : ∀ v, ¬ e.IsCommand (.setto v)) (hreset : e ≠ .reset) :
    t.timeout = s.timeout := by
  cases h with
  | reset => exact absurd rfl hreset
  | setto w v hd => exact absurd ((Event.isCommand_cmd w _).2 hd) (hsetto v)
  | tickTake | checkTake => simp
  | _ => rfl

/-- Only KEYB and RESET write KEY and KEY_MASK. -/
theorem EventStep.key_eq (h : EventStep s e t) (hkeyb : ∀ i b, ¬ e.IsCommand (.keyb i b)) (hreset : e ≠ .reset) :
    t.key = s.key ∧ t.keyMask = s.keyMask := by
  cases h with
  | reset => exact absurd rfl hreset
  | keyb w i b hd => exact absurd ((Event.isCommand_cmd w _).2 hd) (hkeyb i b)
  | tickTake | checkTake => simp
  | _ => exact ⟨rfl, rfl⟩

/-- KEYB sets a bit of KEY_MASK and clears none. -/
theorem State.writeKey_keyMask_and (s : State) (i : BitVec 4) (b : Byte) :
    (s.writeKey i b).keyMask &&& s.keyMask = s.keyMask := by
  simp only [State.writeKey]
  ext j hj
  simp only [BitVec.getElem_and, BitVec.getElem_or]
  cases s.keyMask[j] <;> simp

/-- Only RESET clears a bit of KEY_MASK. -/
theorem keyMask_and_of_takeEvent (h : takeEvent e s = .next t) (hreset : e ≠ .reset) : t.keyMask &&& s.keyMask = s.keyMask := by
  by_cases hkeyb : ∃ i b, e.IsCommand (.keyb i b)
  · obtain ⟨i, b, w, rfl, hd⟩ := hkeyb
    rw [takeEvent_cmd hd] at h
    cases h
    exact State.writeKey_keyMask_and s i b
  · have hnot : ∀ i b, ¬ e.IsCommand (.keyb i b) := fun i b hk => hkeyb ⟨i, b, hk⟩
    rw [((takeEvent_inv e s t h).key_eq hnot hreset).2, BitVec.and_self]

end Writers

/-! ## The statements -/

/-- Settles O25. -/
theorem onlyMissingEntriesFault : Obligations.OnlyMissingEntriesFault := by
  refine ⟨fun s b hcap => ?_, fun s j hc hj hread => ?_, fun s j ha hc hj hread => ?_, fun s i f h => ?_, fun s e f h => ?_,
    fun s i e r => ⟨exec_ne_refused i s r, takeEvent_ne_refused e s r⟩, fun s hp => step_next_of_decoding hp⟩
  · exact (execFeed_eq_fault b s _).2 ⟨rfl, hcap⟩
  · exact (execCheck_eq_fault s _).2 ⟨hc, rfl, (telegram_eq_none s).2 ⟨j, hj, hread⟩⟩
  · exact (tickEvent_eq_fault s _).2 ⟨⟨ha, hc⟩, rfl, (telegram_eq_none s).2 ⟨j, hj, hread⟩⟩
  · rcases (exec_eq_fault i s f).1 h with ⟨hi, hf, hcap⟩ | ⟨hi, hc, hf, ht⟩
    · exact .inl ⟨hf, hi, hcap⟩
    · exact .inr ⟨hf, hi, hc, (telegram_eq_none s).1 ht⟩
  · rcases fault_of_takeEvent h with hfeed | ⟨hf, he, ht⟩
    · exact .inl hfeed
    · exact .inr ⟨hf, he, (telegram_eq_none s).1 ht⟩

/-- Settles O37, by the cases of an event. -/
theorem timeRegistersHaveOnlyTheirWriters : Obligations.TimeRegistersHaveOnlyTheirWriters := by
  refine ⟨fun s t h => ?_, fun s t e h htick hreset => ?_, fun s t e b h hfeed => ?_, fun s t e h hfeed hreset => ?_,
    fun s t e v h hsetto => ?_, fun s t e h hsetto hreset => ?_⟩
  · exact (takeEvent_inv _ s t h).now_of_tick
  · exact (takeEvent_inv e s t h).now_eq htick hreset
  · exact lastArrival_of_feed hfeed h
  · exact (takeEvent_inv e s t h).lastArrival_eq hfeed hreset
  · exact timeout_of_setto hsetto h
  · exact (takeEvent_inv e s t h).timeout_eq hsetto hreset

/-- Settles O38, by the cases of an event. -/
theorem onlyKeybAndResetWriteTheKey : Obligations.OnlyKeybAndResetWriteTheKey :=
  ⟨fun s t e h => (takeEvent_inv e s t h).key_eq, fun _ _ _ => keyMask_and_of_takeEvent⟩

/-- Settles O6. -/
theorem stepRunsTheDecodedCommand : Obligations.StepRunsTheDecodedCommand := by
  refine ⟨fun s w es i hp hi hd => ?_, fun s a es hp hi => ?_, fun s e es hp hi => step_of_cons hp hi,
    fun s hp hi => step_of_nil hp hi⟩
  · rw [step_of_cons hp hi, takeEvent_cmd hd]
  · rw [step_of_cons hp hi, takeEvent_read]

/-- Settles O8, by the inputs that are present. -/
theorem cycleEventsComeInOrder : Obligations.CycleEventsComeInOrder := by
  refine ⟨fun c hrst => ?_, fun w a => rfl, fun t w a => ?_⟩
  · simp only [Cycle.events, hrst, if_true]
  · cases w <;> cases a <;> rfl

/-- Settles O35: RESET leaves the initial state but for what waits in the inbox and rd_data. -/
theorem resetSetsEveryElement : Obligations.ResetSetsEveryElement := by
  intro s
  have htimeout : (BitVec.ofNat 24 s.par.val.timeoutReset).toNat = s.par.val.timeoutReset := by
    rw [BitVec.toNat_ofNat, Nat.mod_eq_of_lt (Params.timeoutReset_of_legal s.par)]
  have hslots (k : Fin 13) : Outputs.zero.val[k] = 0#32 ∧ Outputs.zero.scale[k] = 0#2 := by simp [Outputs.zero]
  have htexts (i : Fin 255) : Outputs.zero.serial[i] = 0#8 ∧ Outputs.zero.name[i] = 0#8 := by simp [Outputs.zero]
  have hirq : s.resetEvent.irq = false := by simp [State.irq, State.initial]
  exact ⟨s.resetEvent, rfl, rfl, rfl, rfl, rfl, rfl, htimeout, rfl, rfl, rfl, rfl, rfl, rfl, rfl, rfl, rfl, hslots, rfl, rfl, rfl,
    htexts, hirq, rfl⟩

end Sys2Proof.Machine
end

section
/-! The read port (10_state.md R37 to R41): the words of the register map, bit by bit and byte by byte, and READ, which returns one
of them and changes no register. -/

namespace Sys2Proof.Machine

/-! ## The words made of fields -/

/-- The value of two fields side by side. -/
theorem toNat_append_eq_add {m n : Nat} (x : BitVec m) (y : BitVec n) : (x ++ y).toNat = x.toNat * 2 ^ n + y.toNat := by
  rw [BitVec.toNat_append, ← Nat.shiftLeft_add_eq_or_of_lt y.isLt, Nat.shiftLeft_eq]

/-- STATUS, bit by bit (R39); bits 4 to 31 are not named. -/
theorem State.statusWord_getLsbD (s : State) (i : Nat) :
    s.statusWord.getLsbD i =
      if i = 0 then s.nonempty else if i = 1 then s.keyLoaded else if i = 2 then s.auto.getLsbD 0
      else if i = 3 then s.irq else false := by
  simp only [State.statusWord, BitVec.getLsbD_append, BitVec.getLsbD_ofBool, BitVec.getLsbD_zero]
  match i with
  | 0 | 1 | 2 | 3 | n + 4 => simp

/-- RESULT, field by field (R39). -/
theorem Result.word_toNat (r : Result) :
    r.word.toNat = r.res.toNat + r.kind.toNat * 2 ^ 8 + r.sub.toNat * 2 ^ 16 := by
  simp only [Result.word, toNat_append_eq_add, BitVec.toNat_zero]
  omega

/-- OUT_TS_DATE, field by field (R39). -/
theorem Timestamp.dateWord_toNat (t : Timestamp) :
    t.dateWord.toNat = t.year.toNat * 2 ^ 16 + t.month.toNat * 2 ^ 8 + t.day.toNat := by
  simp only [Timestamp.dateWord, toNat_append_eq_add]
  omega

/-- OUT_TS_TIME, field by field (R39). -/
theorem Timestamp.timeWord_toNat (t : Timestamp) :
    t.timeWord.toNat = t.hour.toNat * 2 ^ 16 + t.minute.toNat * 2 ^ 8 + t.second.toNat := by
  simp only [Timestamp.timeWord, toNat_append_eq_add, BitVec.toNat_zero]
  omega

/-- Byte j of four bytes side by side, the first one lowest (R86). -/
theorem extractLsb'_four_bytes (f : Nat → Byte) (j : Fin 4) :
    (f 3 ++ f 2 ++ f 1 ++ f 0).extractLsb' (8 * j.val) 8 = f j.val := by
  have skip_byte {m : Nat} (x : BitVec m) (y : Byte) {k : Nat} (hk : 8 ≤ k) :
      (x ++ y).extractLsb' k 8 = x.extractLsb' (k - 8) 8 := BitVec.extractLsb'_append_eq_of_le hk
  match j with
  | 0 => exact BitVec.extractLsb'_append_eq_right
  | 1 => exact (skip_byte _ _ (by decide)).trans BitVec.extractLsb'_append_eq_right
  | 2 => exact (skip_byte _ _ (by decide)).trans ((skip_byte _ _ (by decide)).trans BitVec.extractLsb'_append_eq_right)
  | 3 =>
    exact (skip_byte _ _ (by decide)).trans
      ((skip_byte _ _ (by decide)).trans ((skip_byte _ _ (by decide)).trans BitVec.extractLsb'_eq_self))

/-- Byte j of a text window's word w is byte 4w + j of the window (R39, R40). -/
theorem textWord_extractLsb' (len : Byte) (text : Vector Byte 255) (w : Nat) (j : Fin 4) :
    (textWord len text w).extractLsb' (8 * j.val) 8 = textByte len text (4 * w + j.val) :=
  extractLsb'_four_bytes (fun i => textByte len text (4 * w + i)) j

/-- A byte of a text window, over the text as a list. -/
theorem textByte_eq_getD (len : Byte) (text : Vector Byte 255) (i : Nat) :
    textByte len text i = if i < len.toNat then text.toList.getD i 0#8 else 0#8 := by
  rw [textByte, List.getD_eq_getElem?_getD, Vector.getElem?_toList]

/-! ## The windows of the register map -/

section Windows

variable (s : State)

/-- The slots, values and scale codes in turn (R39). -/
theorem State.registerAt_slots {a : Nat} (h1 : 0x040 ≤ a) (h2 : a < 0x0A8) :
    s.registerAt a = if (a - 0x040) % 8 = 0 then s.out.readVal ((a - 0x040) / 8) else s.out.readScale ((a - 0x040) / 8) := by
  unfold State.registerAt
  iterate 11 rw [if_neg (by omega)]
  exact if_pos ⟨h1, h2⟩

/-- The window of the serial number (R39, R40). -/
theorem State.registerAt_serial {a : Nat} (h1 : 0x100 ≤ a) (h2 : a < 0x200) :
    s.registerAt a = textWord s.out.serialLen s.out.serial ((a - 0x100) / 4) := by
  unfold State.registerAt
  iterate 16 rw [if_neg (by omega)]
  exact if_pos ⟨h1, h2⟩

/-- The window of the device name (R39, R40). -/
theorem State.registerAt_name {a : Nat} (h1 : 0x200 ≤ a) (h2 : a < 0x300) :
    s.registerAt a = textWord s.out.nameLen s.out.name ((a - 0x200) / 4) := by
  unfold State.registerAt
  iterate 17 rw [if_neg (by omega)]
  exact if_pos ⟨h1, h2⟩

/-- A word address between the windows or past them reads 0 (R38). -/
theorem State.registerAt_unlisted {a : Nat} (hword : a % 4 = 0)
    (h : (0x028 < a ∧ a < 0x040) ∨ (0x0A4 < a ∧ a < 0x0C0) ∨ (0x0CC < a ∧ a < 0x100) ∨ 0x300 ≤ a) :
    s.registerAt a = 0#32 := by
  unfold State.registerAt
  iterate 18 rw [if_neg (by omega)]

/-- No register of the map shows KEY, the bytes in TB, the record decoder's registers or rd_data itself (R30, R81). -/
theorem State.registerAt_frame (k : Vector Byte 16) (m : Memory) (d : Decoding) (w : Word) (a : Nat) :
    ({ s with key := k, tb := m, dec := d, rdData := w } : State).registerAt a = s.registerAt a := rfl

end Windows

/-! ## READ -/

/-- READs in turn leave the word of the last one on rd_data, and nothing else: none of them sees what the one before left there. -/
theorem runEvents_reads (as : List (BitVec 12)) (a : BitVec 12) (s : State) :
    runEvents (as.map Event.read ++ [.read a]) s = .next (s.setRdData (s.readWord (a.extractLsb' 2 10))) := by
  induction as generalizing s with
  | nil => rfl
  | cons b as ih => exact ih (s.setRdData (s.readWord (b.extractLsb' 2 10)))

/-! ## The statements -/

/-- Settles O17, by induction on the registers that a collection needs. -/
theorem readReturnsTheWordAndChangesNothing : Obligations.ReadReturnsTheWordAndChangesNothing := by
  refine ⟨fun s a => rfl, fun s a b hab => ?_, fun s needed => ?_⟩
  · simp only [takeEvent, eventAction, decodeRead, hab]
  · exact runEvents_reads (0x024#12 :: needed) 0x024#12 s

/-- Settles O18. -/
theorem registerMapOfThePlainRegisters : Obligations.RegisterMapOfThePlainRegisters := by
  intro s
  have hauto : s.auto.getLsbD 0 = decide (s.auto = 1#1) := by
    generalize s.auto = a
    revert a
    decide
  have widened {n : Nat} (x : BitVec n) (hn : n ≤ 32) : (x.setWidth 32).toNat = x.toNat := BitVec.toNat_setWidth_of_le hn
  refine ⟨fun i => ?_, rfl, widened s.timeout (by decide), rfl, rfl, s.result.word_toNat, widened s.irqPend (by decide),
    widened s.irqEn (by decide), widened s.out.valid (by decide), rfl, rfl, s.out.ts.dateWord_toNat, s.out.ts.timeWord_toNat,
    widened s.out.serialLen (by decide), widened s.out.nameLen (by decide)⟩
  rw [← hauto]
  exact s.statusWord_getLsbD i.val

/-- Settles O19, window by window. -/
theorem registerMapOfSlotsAndTexts : Obligations.RegisterMapOfSlotsAndTexts := by
  intro s
  refine ⟨fun k => ?_, fun k => ?_, fun w j => ?_, fun w j => ?_, fun a h hword => s.registerAt_unlisted hword h⟩
  · rw [s.registerAt_slots (by omega) (by omega), if_pos (by omega), show (0x040 + 8 * k.val - 0x040) / 8 = k.val by omega]
    simp [Outputs.readVal, Outputs.present]
  · rw [s.registerAt_slots (by omega) (by omega), if_neg (by omega), show (0x044 + 8 * k.val - 0x040) / 8 = k.val by omega]
    simp [Outputs.readScale, Outputs.present]
  · rw [s.registerAt_serial (by omega) (by omega), show (0x100 + 4 * w.val - 0x100) / 4 = w.val by omega, textWord_extractLsb',
      textByte_eq_getD]
  · rw [s.registerAt_name (by omega) (by omega), show (0x200 + 4 * w.val - 0x200) / 4 = w.val by omega, textWord_extractLsb',
      textByte_eq_getD]

/-- Settles O20: the register map names none of these elements. -/
theorem keyBufferAndTransientsAreNotReadable : Obligations.KeyBufferAndTransientsAreNotReadable :=
  fun s k m d a => s.registerAt_frame k m d s.rdData (4 * a.toNat)

end Sys2Proof.Machine
end

section
/-! The encodings (30_encoding.md R101 to R106, R118) and the classification of OBIS codes (R125): each of the three decoders is the
inverse of the encoder, the legal words are the rows of R103, and the table is looked up exactly. -/

namespace Sys2Proof

/-! ## A word and its fields -/

/-- A stretch of a word is two fields side by side exactly when each field is its own part of the stretch. -/
theorem append_eq_extractLsb'_iff {v m n : Nat} (x : BitVec m) (y : BitVec n) (w : BitVec v) (s : Nat) :
    x ++ y = w.extractLsb' s (m + n) ↔ w.extractLsb' (s + n) m = x ∧ w.extractLsb' s n = y := by
  rw [← BitVec.extractLsb'_append_extractLsb'_eq_extractLsb' rfl]
  constructor
  · intro h
    have hx := congrArg (BitVec.extractLsb' n m) h
    have hy := congrArg (BitVec.extractLsb' 0 n) h
    rw [BitVec.extractLsb'_append_eq_left, BitVec.extractLsb'_append_eq_left] at hx
    rw [BitVec.extractLsb'_append_eq_right, BitVec.extractLsb'_append_eq_right] at hy
    exact ⟨hx.symm, hy.symm⟩
  · rintro ⟨rfl, rfl⟩
    rfl

/-- A word is two fields side by side exactly when each field is its own part of the word. -/
theorem append_eq_iff {m n : Nat} (x : BitVec m) (y : BitVec n) (w : BitVec (m + n)) :
    x ++ y = w ↔ w.extractLsb' n m = x ∧ w.extractLsb' 0 n = y := by
  simpa only [BitVec.extractLsb'_eq_self, Nat.zero_add] using append_eq_extractLsb'_iff x y w 0

/-- The three fields of a word, the highest one first. -/
theorem append₃_eq_iff {m k n : Nat} (x : BitVec m) (y : BitVec k) (z : BitVec n) (w : BitVec (m + k + n)) :
    x ++ y ++ z = w ↔ w.extractLsb' (n + k) m = x ∧ w.extractLsb' n k = y ∧ w.extractLsb' 0 n = z := by
  rw [append_eq_iff, eq_comm, append_eq_extractLsb'_iff, and_assoc]

/-- The four fields of a word, the highest one first. -/
theorem append₄_eq_iff {m l k n : Nat} (x : BitVec m) (u : BitVec l) (y : BitVec k) (z : BitVec n)
    (w : BitVec (m + l + k + n)) :
    x ++ u ++ y ++ z = w ↔
      w.extractLsb' (n + k + l) m = x ∧ w.extractLsb' (n + k) l = u ∧ w.extractLsb' n k = y ∧ w.extractLsb' 0 n = z := by
  rw [append₃_eq_iff, eq_comm, append_eq_extractLsb'_iff, and_assoc]

/-- A mask of ones over zeros reads off the high part of a word. -/
theorem and_highMask_eq_iff {m n : Nat} (x : BitVec m) (w : BitVec (m + n)) :
    w &&& (BitVec.allOnes m ++ 0#n) = x ++ 0#n ↔ w.extractLsb' n m = x := by
  rw [eq_comm, append_eq_iff]
  simp only [BitVec.extractLsb'_and, BitVec.extractLsb'_append_eq_left, BitVec.extractLsb'_append_eq_right, BitVec.and_allOnes,
    BitVec.and_zero, and_true]

/-! ## Command words -/

/-- The opcode map of R101: what a word decodes to, row by row. -/
theorem decodeCmd_eq_ok_iff (w : BitVec 32) (i : Instr) :
    decodeCmd w = .ok i ↔
      (w.extractLsb' 24 8 = 0x00#8 ∧ w.extractLsb' 0 24 = 0#24 ∧ .nop = i) ∨
      (w.extractLsb' 24 8 = 0x01#8 ∧ w.extractLsb' 8 16 = 0#16 ∧ .feed (w.extractLsb' 0 8) = i) ∨
      (w.extractLsb' 24 8 = 0x02#8 ∧ w.extractLsb' 0 24 = 0#24 ∧ .check = i) ∨
      (w.extractLsb' 24 8 = 0x03#8 ∧ w.extractLsb' 12 12 = 0#12 ∧ .keyb (w.extractLsb' 8 4) (w.extractLsb' 0 8) = i) ∨
      (w.extractLsb' 24 8 = 0x04#8 ∧ .setto (w.extractLsb' 0 24) = i) ∨
      (w.extractLsb' 24 8 = 0x05#8 ∧ w.extractLsb' 1 23 = 0#23 ∧ .setctl (w.extractLsb' 0 1) = i) ∨
      (w.extractLsb' 24 8 = 0x06#8 ∧ w.extractLsb' 3 21 = 0#21 ∧ .setie (w.extractLsb' 0 3) = i) ∨
      (w.extractLsb' 24 8 = 0x07#8 ∧ w.extractLsb' 3 21 = 0#21 ∧ .clrirq (w.extractLsb' 0 3) = i) := by
  simp only [decodeCmd]
  split_ifs <;> simp [*]

/-- A command word encodes an instruction exactly when it decodes to it. -/
theorem encode_eq_cmd_iff (p : Params) (i : Instr) (w : BitVec 32) : encode p i = .cmd w ↔ decodeCmd w = .ok i := by
  rw [decodeCmd_eq_ok_iff]
  cases i with
  | nop => simpa [encode] using append_eq_iff (m := 8) (n := 24) 0x00#8 0#24 w
  | feed b => simpa [encode] using append₃_eq_iff (m := 8) (k := 16) (n := 8) 0x01#8 0#16 b w
  | check => simpa [encode] using append_eq_iff (m := 8) (n := 24) 0x02#8 0#24 w
  | keyb j b => simpa [encode] using append₄_eq_iff (m := 8) (l := 12) (k := 4) (n := 8) 0x03#8 0#12 j b w
  | setto t => simpa [encode] using append_eq_iff (m := 8) (n := 24) 0x04#8 t w
  | setctl a => simpa [encode] using append₃_eq_iff (m := 8) (k := 23) (n := 1) 0x05#8 0#23 a w
  | setie m => simpa [encode] using append₃_eq_iff (m := 8) (k := 21) (n := 3) 0x06#8 0#21 m w
  | clrirq m => simpa [encode] using append₃_eq_iff (m := 8) (k := 21) (n := 3) 0x07#8 0#21 m w
  | read a => simp [encode]
  | u32 => simp [encode]
  | u16 => simp [encode]
  | octet => simp [encode]

/-! ## Read addresses and data-type tags -/

/-- A read address encodes an instruction exactly when it decodes to it and its two ignored bits are 0. -/
theorem encode_eq_read_iff (p : Params) (i : Instr) (a : BitVec 12) :
    encode p i = .read a ↔ decodeRead a = i ∧ a.extractLsb' 0 2 = 0#2 := by
  cases i with
  | read r => simpa [encode, decodeRead] using append_eq_iff (m := 10) (n := 2) r 0#2 a
  | _ => simp [encode, decodeRead]

/-- The tag decoder reads each of the three tags as its own operation (R118): they are distinct. -/
theorem decodeTag_eq_ok_iff (p : LegalParams) (b : Byte) (i : Instr) :
    decodeTag p.val b = .ok i ↔
      (i = .u32 ∧ b = p.val.tagU32) ∨ (i = .u16 ∧ b = p.val.tagU16) ∨ (i = .octet ∧ b = p.val.tagOctet) := by
  refine ⟨Machine.decodeTag_cases p.val b i, ?_⟩
  obtain ⟨h32, h16, h⟩ := Params.tags_of_legal p
  rintro (⟨rfl, rfl⟩ | ⟨rfl, rfl⟩ | ⟨rfl, rfl⟩)
  · simp [decodeTag]
  · simp [decodeTag, h]
  · simp [decodeTag, h32.symm, h16.symm]

/-- A tag byte encodes an instruction exactly when it decodes to it. -/
theorem encode_eq_tag_iff (p : LegalParams) (i : Instr) (b : Byte) : encode p.val i = .tag b ↔ decodeTag p.val b = .ok i := by
  rw [decodeTag_eq_ok_iff]
  cases i <;> simp [encode, eq_comm]

/-! ## Legal words -/

/-- What it is to be a word of a row whose mask covers the OP and `k` reserved bits. -/
theorem and_rowMask_eq_iff {k n : Nat} (op : BitVec 8) (w : BitVec (8 + k + n)) :
    w &&& (BitVec.allOnes (8 + k) ++ 0#n) = op ++ 0#k ++ 0#n ↔ w.extractLsb' (n + k) 8 = op ∧ w.extractLsb' n k = 0#k := by
  rw [and_highMask_eq_iff, eq_comm, append_eq_extractLsb'_iff]

/-- The match and mask rows of R103 are the opcode map of R101. -/
theorem legalCmd_iff (w : BitVec 32) :
    legalCmd w = true ↔
      (w.extractLsb' 24 8 = 0x00#8 ∧ w.extractLsb' 0 24 = 0#24) ∨ (w.extractLsb' 24 8 = 0x01#8 ∧ w.extractLsb' 8 16 = 0#16) ∨
      (w.extractLsb' 24 8 = 0x02#8 ∧ w.extractLsb' 0 24 = 0#24) ∨ (w.extractLsb' 24 8 = 0x03#8 ∧ w.extractLsb' 12 12 = 0#12) ∨
      w.extractLsb' 24 8 = 0x04#8 ∨ (w.extractLsb' 24 8 = 0x05#8 ∧ w.extractLsb' 1 23 = 0#23) ∨
      (w.extractLsb' 24 8 = 0x06#8 ∧ w.extractLsb' 3 21 = 0#21) ∨ (w.extractLsb' 24 8 = 0x07#8 ∧ w.extractLsb' 3 21 = 0#21) := by
  have nop : w &&& 0xFFFFFFFF#32 = 0x00000000#32 ↔ _ := and_rowMask_eq_iff (k := 24) (n := 0) 0x00#8 w
  have feed : w &&& 0xFFFFFF00#32 = 0x01000000#32 ↔ _ := and_rowMask_eq_iff (k := 16) (n := 8) 0x01#8 w
  have check : w &&& 0xFFFFFFFF#32 = 0x02000000#32 ↔ _ := and_rowMask_eq_iff (k := 24) (n := 0) 0x02#8 w
  have keyb : w &&& 0xFFFFF000#32 = 0x03000000#32 ↔ _ := and_rowMask_eq_iff (k := 12) (n := 12) 0x03#8 w
  have setto : w &&& 0xFF000000#32 = 0x04000000#32 ↔ _ := and_highMask_eq_iff (m := 8) (n := 24) 0x04#8 w
  have setctl : w &&& 0xFFFFFFFE#32 = 0x05000000#32 ↔ _ := and_rowMask_eq_iff (k := 23) (n := 1) 0x05#8 w
  have setie : w &&& 0xFFFFFFF8#32 = 0x06000000#32 ↔ _ := and_rowMask_eq_iff (k := 21) (n := 3) 0x06#8 w
  have clrirq : w &&& 0xFFFFFFF8#32 = 0x07000000#32 ↔ _ := and_rowMask_eq_iff (k := 21) (n := 3) 0x07#8 w
  simp only [legalCmd, cmdRows, CmdRow.holds, List.any_cons, List.any_nil, Bool.or_eq_true, decide_eq_true_eq, Bool.or_false,
    nop, feed, check, keyb, setto, setctl, setie, clrirq]

/-- A word is legal exactly when it decodes to a command (R104). -/
theorem legalCmd_iff_exists_decodeCmd (w : BitVec 32) : legalCmd w = true ↔ ∃ i, decodeCmd w = .ok i := by
  simp only [legalCmd_iff, decodeCmd_eq_ok_iff, exists_or, exists_and_left, exists_eq', and_true]

/-- A word of no row is rejected by the decoder. -/
theorem exists_decodeCmd_eq_error {w : BitVec 32} (h : legalCmd w = false) : ∃ r, decodeCmd w = .error r := by
  cases hd : decodeCmd w with
  | error r => exact ⟨r, rfl⟩
  | ok i => exact absurd ((legalCmd_iff_exists_decodeCmd w).2 ⟨i, hd⟩) (by simp [h])

/-- A word of a row has the row's OP. -/
theorem CmdRow.op_eq_of_holds {r : CmdRow} (hr : r ∈ cmdRows) {w : BitVec 32} (h : r.holds w = true) :
    w.extractLsb' 24 8 = r.value.extractLsb' 24 8 := by
  have hmask : ∀ r ∈ cmdRows, r.mask.extractLsb' 24 8 = BitVec.allOnes 8 := by decide
  rw [← of_decide_eq_true h, BitVec.extractLsb'_and, hmask r hr, BitVec.and_allOnes]

/-- A row is known by its OP. -/
theorem CmdRow.eq_of_op_eq : ∀ r₁ ∈ cmdRows, ∀ r₂ ∈ cmdRows, r₁.value.extractLsb' 24 8 = r₂.value.extractLsb' 24 8 → r₁ = r₂ := by
  decide

/-! ## Field A -/

/-- The value of field A that selects a medium (R124). -/
def Params.fieldA (p : Params) : Medium → Byte
  | .electricity => p.medElec
  | .abstract => p.medAbstract

/-- The media have distinct values of field A. -/
theorem Params.media_of_legal (p : LegalParams) : p.val.medElec ≠ p.val.medAbstract := by
  obtain ⟨-, -, -, -, -, -, -, -, hmedia, -⟩ := (Params.legal_iff p.val).1 p.property
  exact (Params.mediaOk_iff p.val).1 hmedia

/-- No two rows of the table have the same fields C and D. -/
theorem Params.tablePairs_of_legal (p : LegalParams) : (p.val.obisTable.map fun r => (r.c, r.d)).Nodup := by
  obtain ⟨-, -, -, -, -, -, -, -, -, hpairs, -⟩ := (Params.legal_iff p.val).1 p.property
  exact ((Params.tablePairsOk_iff p.val).1 hpairs).2

end Sys2Proof

namespace Sys2Proof.Machine

/-! ## The classification -/

/-- Field A selects the medium that it is the value of. -/
theorem mediumOf_eq_ok_iff (p : LegalParams) (a : Byte) (m : Medium) : mediumOf p.val a = .ok m ↔ a = p.val.fieldA m := by
  have hne := Params.media_of_legal p
  unfold mediumOf
  split
  · next h => cases m <;> simp [Params.fieldA, h, hne]
  split
  · next h => cases m <;> simp [Params.fieldA, h, hne.symm]
  · next he ha => cases m <;> simp [Params.fieldA, he, ha]

/-- Any other value of field A is an abort (R286). -/
theorem mediumOf_of_ne {p : Params} {a : Byte} (he : a ≠ p.medElec) (ha : a ≠ p.medAbstract) :
    mediumOf p a = .error .obisBadMedium := by
  simp [mediumOf, he, ha]

/-- A code whose field A selects a medium is looked up under it. -/
theorem classify_of_fieldA (p : LegalParams) {code : Vector Byte 6} {m : Medium} (h : code[0] = p.val.fieldA m) :
    classify p.val code = .ok (lookupCodeType p.val.obisTable m code[2] code[3]) := by
  simp only [classify, (mediumOf_eq_ok_iff p code[0] m).2 h]

/-- The lookup finds nothing exactly when the table has no row for the medium and the two fields. -/
theorem lookupCodeType_eq_none_iff (table : List ObisRow) (m : Medium) (c d : Byte) :
    lookupCodeType table m c d = none ↔ ∀ r ∈ table, ¬ (r.medium = m ∧ r.c = c ∧ r.d = d) := by
  simp [lookupCodeType]

/-- Where no two rows have the same fields C and D, the lookup finds each row under its own medium and fields. -/
theorem lookupCodeType_of_mem {table : List ObisRow} (hpairs : (table.map fun r => (r.c, r.d)).Nodup) {r : ObisRow}
    (hr : r ∈ table) : lookupCodeType table r.medium r.c r.d = some r.codeType := by
  unfold lookupCodeType
  cases hf : table.find? fun x => decide (x.medium = r.medium) && decide (x.c = r.c) && decide (x.d = r.d) with
  | none => simpa using List.find?_eq_none.1 hf r hr
  | some x =>
    have hx := List.find?_some hf
    simp only [Bool.and_eq_true, decide_eq_true_eq] at hx
    obtain ⟨⟨-, hc⟩, hd⟩ := hx
    have hxr : x = r := List.inj_on_of_nodup_map hpairs (List.mem_of_find?_eq_some hf) hr (Prod.ext hc hd)
    rw [hxr, Option.map_some]

/-! ## The statements -/

/-- Settles O1, decoder by decoder. -/
theorem decodeOfEncodeIsTheInstruction : Obligations.DecodeOfEncodeIsTheInstruction := by
  intro p i _
  cases h : encode p.val i with
  | cmd w => exact (encode_eq_cmd_iff p.val i w).1 h
  | read a => exact congrArg Except.ok ((encode_eq_read_iff p.val i a).1 h).1
  | tag b => exact (encode_eq_tag_iff p i b).1 h

/-- Settles O2, decoder by decoder; clearing the two ignored bits of a read address leaves what it decodes to. -/
theorem encodeOfDecodedIsTheEncoding : Obligations.EncodeOfDecodedIsTheEncoding := by
  refine ⟨fun p w i => (encode_eq_cmd_iff p.val i w).2, fun p b i => (encode_eq_tag_iff p i b).2, fun p a => ?_⟩
  refine (encode_eq_read_iff p.val _ _).2 ⟨congrArg Instr.read ?_, ?_⟩
  · rw [BitVec.extractLsb'_and]
    exact BitVec.and_allOnes
  · rw [BitVec.extractLsb'_and]
    exact BitVec.and_zero

/-- Settles O3: a row is known by its OP, and its mask covers the OP. -/
theorem legalWordsAreTheEightRows : Obligations.LegalWordsAreTheEightRows :=
  ⟨legalCmd_iff, legalCmd_iff_exists_decodeCmd, fun _ r₁ r₂ hr₁ hr₂ h₁ h₂ =>
    CmdRow.eq_of_op_eq r₁ hr₁ r₂ hr₂ ((CmdRow.op_eq_of_holds hr₁ h₁).symm.trans (CmdRow.op_eq_of_holds hr₂ h₂))⟩

/-- Settles O9: the decoder rejects such a word, and the report is the one bit. -/
theorem illegalWordOnlySetsIllegal : Obligations.IllegalWordOnlySetsIllegal := by
  intro s w h
  obtain ⟨r, hd⟩ := exists_decodeCmd_eq_error h
  exact takeEvent_illegal hd s

/-- Settles O46: field A selects the medium, and the lookup finds its row or nothing. -/
theorem classificationFollowsTheTable : Obligations.ClassificationFollowsTheTable := by
  intro p code
  refine ⟨fun he ha => ?_, fun r hr hA hC hD => ?_, fun hA hno => ?_, fun hA hno => ?_⟩
  · simp only [classify, mediumOf_of_ne he ha]
  · have hA' : code[0] = p.val.fieldA r.medium := hA
    rw [classify_of_fieldA p hA', hC, hD, lookupCodeType_of_mem (Params.tablePairs_of_legal p) hr]
  · rw [classify_of_fieldA p (m := .electricity) hA, (lookupCodeType_eq_none_iff _ _ _ _).2 hno]
  · rw [classify_of_fieldA p (m := .abstract) hA, (lookupCodeType_eq_none_iff _ _ _ _).2 hno]

/-- Settles O4: each decoder run on the spec's own words. -/
theorem specExampleWordsDecode : Obligations.SpecExampleWordsDecode := by
  unfold Obligations.SpecExampleWordsDecode
  decide

end Sys2Proof.Machine
end

section
/-! The frame accumulator and the inactivity timeout (40_accumulator.md R151 to R164): what FEED, CHECK and TICK answer in each
case of a state, what a byte appended does to the telegram, and what feeding and waiting come to over many events. -/

namespace Sys2Proof.Machine

/-! ## Sequences of events -/

theorem runEvents_cons {e : Event} {s t : State} (h : takeEvent e s = .next t) (es : List Event) :
    runEvents (e :: es) s = runEvents es t := by
  simp only [runEvents, h]

/-- A run of the first sequence that goes on is followed by the run of the second. -/
theorem runEvents_append {es : List Event} {s t : State} (h : runEvents es s = .next t) (fs : List Event) :
    runEvents (es ++ fs) s = runEvents fs t := by
  induction es generalizing s with
  | nil => cases h; rfl
  | cons e es ih =>
    simp only [List.cons_append, runEvents] at h ⊢
    cases he : takeEvent e s with
    | next u => rw [he] at h; exact ih h
    | fault r => rw [he] at h; cases h
    | refused r => rw [he] at h; cases h

/-- A command's events run the command, whatever the parameters of the engine that takes them. -/
theorem runEvents_commandEvents {i : Instr} {w : BitVec 32} (hw : encode Config.defaultParams i = .cmd w) {s t : State}
    (h : exec i s = .next t) : runEvents (commandEvents i) s = .next t := by
  have hevents : commandEvents i = [.cmd w] := by rw [commandEvents, hw, encodingEvents]
  have htake : takeEvent (.cmd w) s = .next t := (takeEvent_cmd ((encode_eq_cmd_iff _ i w).1 hw) s).trans h
  rw [hevents, runEvents_cons htake, runEvents]

theorem feedsEvents_cons (b : Byte) (bs : Bytes) : feedsEvents (b :: bs) = commandEvents (.feed b) ++ feedsEvents bs :=
  List.flatMap_cons

theorem waitEvents_succ (n : Nat) : waitEvents (n + 1) = waitEvents n ++ [.tick] := List.replicate_succ'

/-! ## The telegram in the buffer -/

/-- The telegram is COUNT bytes long. -/
theorem State.length_of_telegram {s : State} {raw : Bytes} (h : s.telegram = some raw) : raw.length = s.count.toNat :=
  Memory.readRange_length s.tb 0 s.count.toNat raw h

/-- A sound buffer holds a telegram: every entry below COUNT is listed (10_state.md R25). -/
theorem State.BufferSound.exists_telegram {s : State} (h : s.BufferSound) : ∃ raw, s.telegram = some raw := by
  obtain ⟨-, hcells, -⟩ := h
  refine Option.ne_none_iff_exists'.1 fun hnone => ?_
  obtain ⟨j, hj, hread⟩ := (telegram_eq_none s).1 hnone
  have hmem : j ∈ s.tb.map Prod.fst := by rw [hcells]; exact List.mem_range.2 hj
  obtain ⟨b, hb⟩ := Memory.read_some_of_mem s.tb j hmem
  exact absurd (hread.symm.trans hb) nofun

/-- An empty buffer holds the empty telegram. -/
theorem State.telegram_of_count_zero {s : State} (h : s.count = 0#32) : s.telegram = some [] := by
  rw [State.telegram, h]
  rfl

/-- While there is room, COUNT does not wrap (00_scope.md R9). -/
theorem State.appendByte_count_toNat {s : State} (hroom : s.count.toNat < s.par.val.bufCap) (b : Byte) :
    (s.appendByte b).count.toNat = s.count.toNat + 1 := by
  have hcap := (Params.bufCap_of_legal s.par).2
  rw [State.appendByte_count, BitVec.toNat_add, BitVec.toNat_ofNat]
  omega

/-- A byte appended is the last one of the telegram. -/
theorem State.telegram_appendByte {s : State} {raw : Bytes} (hroom : s.count.toNat < s.par.val.bufCap)
    (hraw : s.telegram = some raw) (b : Byte) : (s.appendByte b).telegram = some (raw ++ [b]) := by
  rw [State.telegram, State.appendByte_count_toNat hroom, State.appendByte_tb]
  apply Memory.readRange_succ_last
  · rw [Memory.readRange_write _ _ _ _ _ (.inr (Nat.zero_add _).le)]
    exact hraw
  · rw [Nat.zero_add, Memory.read_write_same]

/-! ## FEED -/

theorem exec_feed_of_room {s : State} (hroom : s.count.toNat < s.par.val.bufCap) (b : Byte) :
    exec (.feed b) s = .next (s.markArrival.appendByte b) :=
  (execFeed_eq_next b s _).2 (.inr ⟨hroom, rfl⟩)

theorem exec_feed_of_full {s : State} (hfull : s.count.toNat = s.par.val.bufCap) (b : Byte) :
    exec (.feed b) s = .next (s.markArrival.abort .framingBufferOverflow) :=
  (execFeed_eq_next b s _).2 (.inl ⟨hfull, rfl⟩)

/-- FEED leaves a sound buffer sound. -/
theorem State.BufferSound.feed {s : State} (h : s.BufferSound) (hroom : s.count.toNat < s.par.val.bufCap) (b : Byte) :
    (s.markArrival.appendByte b).BufferSound :=
  State.BufferSound.appendByte (s := s.markArrival) h hroom b

/-- A byte fed is the last one of the telegram. -/
theorem State.telegram_feed {s : State} {raw : Bytes} (hroom : s.count.toNat < s.par.val.bufCap)
    (hraw : s.telegram = some raw) (b : Byte) : (s.markArrival.appendByte b).telegram = some (raw ++ [b]) :=
  State.telegram_appendByte (s := s.markArrival) hroom hraw b

/-- A byte fed restarts the inactivity interval. -/
theorem State.elapsed_feed (s : State) (b : Byte) : (s.markArrival.appendByte b).elapsed = 0#32 := BitVec.sub_self s.now

/-! ## The completion test -/

theorem State.complete_iff (s : State) : s.complete = true ↔ s.count ≠ 0#32 ∧ s.timeout.toNat < s.elapsed.toNat := by
  simp only [State.complete, State.nonempty, Bool.and_eq_true, decide_eq_true_eq]

theorem State.complete_eq_false_of_elapsed_le {s : State} (h : s.elapsed.toNat ≤ s.timeout.toNat) : s.complete = false :=
  Bool.eq_false_iff.2 fun hc => Nat.not_lt.2 h ((State.complete_iff s).1 hc).2

/-! ## CHECK and TICK -/

theorem exec_check_of_incomplete {s : State} (hc : s.complete = false) : exec .check s = .next s :=
  (execCheck_eq_next s s).2 (.inl ⟨hc, rfl⟩)

theorem exec_check_of_complete {s : State} {raw : Bytes} (hc : s.complete = true) (hraw : s.telegram = some raw) :
    exec .check s = .next (s.discardBuffer.finish (s.decodeOf raw)) :=
  (execCheck_eq_next s _).2 (.inr ⟨hc, raw, hraw, rfl⟩)

theorem takeEvent_tick_of_quiet {s : State} (h : s.auto = 0#1 ∨ s.advanceNow.complete = false) :
    takeEvent .tick s = .next s.advanceNow := by
  refine (tickEvent_eq_next s _).2 (.inl ⟨fun ⟨ha, hc⟩ => ?_, rfl⟩)
  rcases h with h | h
  · exact absurd (h.symm.trans ha) (by decide)
  · exact absurd (h.symm.trans hc) nofun

/-- With AUTO = 1, a TICK is a CHECK at the new NOW. -/
theorem takeEvent_tick_of_auto {s : State} (ha : s.auto = 1#1) : takeEvent .tick s = exec .check s.advanceNow := by
  cases hc : s.advanceNow.complete with
  | false => rw [takeEvent_tick_of_quiet (.inr hc), exec_check_of_incomplete hc]
  | true => exact (if_pos ⟨ha, hc⟩).trans (if_pos hc).symm

/-! ## Waiting -/

/-- The state with NOW moved on by a number of ticks and nothing else changed. -/
def State.advanceNowBy (s : State) (n : Nat) : State := { s with now := s.now + BitVec.ofNat 32 n }

theorem State.advanceNowBy_zero (s : State) : s.advanceNowBy 0 = s := by
  simp only [State.advanceNowBy, BitVec.add_zero]

theorem State.advanceNowBy_succ (s : State) (n : Nat) : s.advanceNowBy (n + 1) = (s.advanceNowBy n).advanceNow := by
  simp only [State.advanceNowBy, State.advanceNow, BitVec.ofNat_add, BitVec.add_assoc]

/-- The ticks since the last arrival are what has elapsed, while they fit NOW (R155). -/
theorem State.elapsed_advanceNowBy {s : State} (hnow : s.lastArrival = s.now) {n : Nat} (hn : n < 2 ^ 32) :
    (s.advanceNowBy n).elapsed.toNat = n := by
  have helapsed : (s.advanceNowBy n).elapsed = BitVec.ofNat 32 n := by
    simp only [State.elapsed, State.advanceNowBy, hnow, BitVec.add_comm s.now, BitVec.add_sub_cancel]
  rw [helapsed, BitVec.toNat_ofNat, Nat.mod_eq_of_lt hn]

/-- Up to TIMEOUT ticks after the last arrival, every TICK only advances NOW. -/
theorem runEvents_waitEvents {s : State} (hnow : s.lastArrival = s.now) {n : Nat} (hn : n ≤ s.timeout.toNat) :
    runEvents (waitEvents n) s = .next (s.advanceNowBy n) := by
  induction n with
  | zero => rw [State.advanceNowBy_zero]; rfl
  | succ n ih =>
    have hfit : n + 1 < 2 ^ 32 := hn.trans_lt (s.timeout.isLt.trans (by decide))
    have hquiet : (s.advanceNowBy (n + 1)).complete = false :=
      State.complete_eq_false_of_elapsed_le ((State.elapsed_advanceNowBy hnow hfit).trans_le hn)
    rw [State.advanceNowBy_succ] at hquiet ⊢
    rw [waitEvents_succ, runEvents_append (ih (Nat.le_of_succ_le hn)), runEvents_cons (takeEvent_tick_of_quiet (.inr hquiet)),
      runEvents]

/-! ## The stages of a decode -/

section Stages

variable {p : Params} {key raw pb pt : Bytes} {loaded : Bool} {c : Cause}

theorem telegramOutcome_of_reassemble_error (h : reassemble p raw = .error c) : telegramOutcome p key loaded raw = .error c := by
  rw [telegramOutcome, h, except_error_bind]

theorem telegramOutcome_of_reassemble_ok (h : reassemble p raw = .ok pb) :
    telegramOutcome p key loaded raw = openEnvelope p key loaded pb >>= decodeRecords p := by
  rw [telegramOutcome, h, except_ok_bind]

theorem telegramOutcome_of_openEnvelope_error (hpb : reassemble p raw = .ok pb)
    (h : openEnvelope p key loaded pb = .error c) : telegramOutcome p key loaded raw = .error c := by
  rw [telegramOutcome_of_reassemble_ok hpb, h, except_error_bind]

theorem telegramOutcome_of_openEnvelope_ok (hpb : reassemble p raw = .ok pb) (h : openEnvelope p key loaded pb = .ok pt) :
    telegramOutcome p key loaded raw = decodeRecords p pt := by
  rw [telegramOutcome_of_reassemble_ok hpb, h, except_ok_bind]

end Stages

/-! ## The statements -/

/-- Settles O21. -/
theorem feedAppendsTheByte : Obligations.FeedAppendsTheByte := fun s b hroom =>
  ⟨s.markArrival.appendByte b, exec_feed_of_room hroom b, rfl, State.appendByte_count_toNat (s := s.markArrival) hroom b,
    Memory.read_write_same s.tb _ b, fun i => Memory.read_write_other s.tb _ i b, Memory.wf_write s.tb _ b⟩

/-- Settles O22. -/
theorem feedIntoAFullBufferAborts : Obligations.FeedIntoAFullBufferAborts := fun _ b hfull => exec_feed_of_full hfull b

/-- Settles O23, by induction on the bytes fed: the first one leaves a sound buffer that the others are fed into. -/
theorem feedsAccumulateInOrder : Obligations.FeedsAccumulateInOrder := by
  intro bs
  induction bs with
  | nil =>
    intro s raw hsound hraw _
    exact ⟨s, rfl, by rw [hraw, List.append_nil], hsound, (State.length_of_telegram hraw).symm, rfl⟩
  | cons b bs ih =>
    intro s raw hsound hraw hfits
    rw [List.length_cons] at hfits
    have hlength := State.length_of_telegram hraw
    have hroom : s.count.toNat < s.par.val.bufCap := by omega
    have hfits' : (raw ++ [b]).length + bs.length ≤ s.par.val.bufCap := by
      rw [List.length_append, List.length_singleton]
      omega
    obtain ⟨t, hrun, htelegram, htsound, hcount, hframe⟩ :=
      ih (s.markArrival.appendByte b) (raw ++ [b]) (hsound.feed hroom b) (State.telegram_feed hroom hraw b) hfits'
    refine ⟨t, ?_, ?_, htsound, ?_, hframe⟩
    · rw [feedsEvents_cons, runEvents_append (runEvents_commandEvents rfl (exec_feed_of_room hroom b)), hrun]
    · rw [htelegram, List.append_assoc, List.singleton_append]
    · rw [hcount, List.length_append, List.length_singleton, List.length_cons]
      omega

/-- Settles O24: with nothing elapsed no TIMEOUT is exceeded. -/
theorem feedJoinsTheTelegramAndRestartsTheInterval : Obligations.FeedJoinsTheTelegramAndRestartsTheInterval := by
  intro s b raw _ hroom hraw
  have helapsed := State.elapsed_feed s b
  have hquiet : (s.markArrival.appendByte b).complete = false :=
    State.complete_eq_false_of_elapsed_le (by rw [helapsed]; exact Nat.zero_le _)
  exact ⟨_, exec_feed_of_room hroom b, State.telegram_feed hroom hraw b, helapsed, hquiet, exec_check_of_incomplete hquiet⟩

/-- Settles O26. -/
theorem completionPredicate : Obligations.CompletionPredicate := by
  have hsub (s : State) : s.elapsed.toNat = (s.now.toNat + 2 ^ 32 - s.lastArrival.toNat) % 2 ^ 32 := by
    have hlast := s.lastArrival.isLt
    rw [State.elapsed, BitVec.toNat_sub]
    congr 1
    omega
  refine ⟨hsub, fun s n hn hnow => ?_, State.complete_iff⟩
  have hlast := s.lastArrival.isLt
  rw [hsub, hnow]
  omega

/-- Settles O27. -/
theorem checkDecodesACompleteTelegram : Obligations.CheckDecodesACompleteTelegram := by
  refine ⟨fun s => exec_check_of_incomplete, fun s raw ms hc hraw hdecode => ?_, fun s raw c hc hraw hdecode => ?_,
    fun s hsound => ?_, fun _ _ _ _ _ => telegramOutcome_of_reassemble_error,
    fun _ _ _ _ _ _ => telegramOutcome_of_openEnvelope_error, fun _ _ _ _ _ _ => telegramOutcome_of_openEnvelope_ok⟩
  · have hok : s.decodeOf raw = .ok ms := hdecode
    rw [exec_check_of_complete hc hraw, hok]
    rfl
  · have herror : s.decodeOf raw = .error c := hdecode
    rw [exec_check_of_complete hc hraw, herror]
    rfl
  · obtain ⟨raw, hraw⟩ := hsound.exists_telegram
    exact ⟨raw, hraw, State.length_of_telegram hraw⟩

/-- Settles O28, by the two ends of a decode. -/
theorem everyTakeEndsOneWay : Obligations.EveryTakeEndsOneWay := by
  intro s t h
  obtain ⟨raw, -, rfl⟩ := (takeAndDecode_eq_next s t).1 h
  rcases finish_cases s.discardBuffer (s.decodeOf raw) with ⟨ms, -, he⟩ | ⟨c, -, he⟩
  · rw [he]
    exact ⟨rfl, State.telegram_of_count_zero rfl, rfl, .inl ⟨rfl, rfl, rfl⟩⟩
  · rw [he]
    exact ⟨rfl, State.telegram_of_count_zero rfl, rfl, .inr ⟨rfl, rfl, c, rfl⟩⟩

/-- Settles O29. -/
theorem tickAdvancesNowThenTests : Obligations.TickAdvancesNowThenTests :=
  ⟨fun s => BitVec.toNat_add s.now 1#32, fun _ => takeEvent_tick_of_quiet, fun _ => takeEvent_tick_of_auto⟩

/-- Settles O30: TIMEOUT ticks change nothing but NOW, and at the next one the elapsed ticks exceed TIMEOUT. -/
theorem autoCompletesExactlyAfterTheTimeout : Obligations.AutoCompletesExactlyAfterTheTimeout := by
  intro s raw hauto hcount hnow hraw
  refine ⟨fun n => runEvents_waitEvents hnow, ?_⟩
  have hfit : s.timeout.toNat + 1 < 2 ^ 32 := (Nat.succ_le_of_lt s.timeout.isLt).trans_lt (by decide)
  have hcomplete : (s.advanceNowBy (s.timeout.toNat + 1)).complete = true :=
    (State.complete_iff _).2 ⟨hcount, (Nat.lt_succ_self _).trans_eq (State.elapsed_advanceNowBy hnow hfit).symm⟩
  have htick : takeEvent .tick (s.advanceNowBy s.timeout.toNat) =
      .next ((s.advanceNowBy (s.timeout.toNat + 1)).discardBuffer.finish (s.decodeOf raw)) := by
    rw [takeEvent_tick_of_auto (s := s.advanceNowBy _) hauto, ← State.advanceNowBy_succ]
    exact exec_check_of_complete hcomplete hraw
  rw [waitEvents_succ, runEvents_append (runEvents_waitEvents hnow le_rfl), runEvents_cons htick]
  rfl

end Sys2Proof.Machine
end

section
/-! The frame parser and the reassembler (41_reassembler.md R182 to R195): the checks of one frame as an ordered chain, what the
frame and the loop read of a RAW with leading bytes passed over, and how a run of valid frames is consumed one pass at a time. -/

namespace Sys2Proof.Machine

/-! ## A check, or a read within bounds, before the rest of a sequence -/

theorem abortIf_bind {α : Type} (bad : Bool) (c : Cause) (f : Unit → Except Cause α) :
    (abortIf bad c >>= f) = if bad = true then .error c else f () := by
  cases bad <;> rfl

theorem readByte_bind_of_lt {α : Type} {s : Bytes} {i : Nat} (h : i < s.length) (c : Cause) (f : Byte → Except Cause α) :
    (readByte s i c >>= f) = f (s.getD i 0#8) := by
  rw [readByte_of_lt s i c h, except_ok_bind]

/-! ## The checks of one frame -/

/-- Settles O50: once the intro is present its four bytes are in range, and once the frame fits so is its stop marker. -/
theorem frameChecksInOrder : Obligations.FrameChecksInOrder := by
  intro p raw off
  simp only [frameLength, Params.mbusIntro_of_legal, abortIf_bind, Bool.or_eq_true, decide_eq_true_eq]
  refine ite_congr rfl (fun _ => rfl) fun hintro => ?_
  have hlast : off + 3 < raw.length := by omega
  rw [readByte_bind_of_lt (by omega), readByte_bind_of_lt hlast]
  refine ite_congr rfl (fun _ => rfl) fun _ => ?_
  rw [readByte_bind_of_lt (by omega), readByte_bind_of_lt (by omega)]
  refine ite_congr rfl (fun _ => rfl) fun _ => ite_congr rfl (fun _ => rfl) fun hfits => ?_
  rw [readByte_bind_of_lt (by omega)]
  rfl

/-! ## The bytes of RAW before the offset are not read -/

theorem getD_append_shift (pre s : Bytes) (i : Nat) (b : Byte) : (pre ++ s).getD (pre.length + i) b = s.getD i b := by
  rw [List.getD_append_right _ _ _ _ (Nat.le_add_right _ _), Nat.add_sub_cancel_left]

theorem slice_append_shift (pre s : Bytes) (i j : Nat) : slice (pre ++ s) (pre.length + i) (pre.length + j) = slice s i j := by
  rw [slice, List.take_length_add_append, List.drop_length_add_append, slice]

theorem frameLength_append_shift (p : LegalParams) (pre s : Bytes) (off : Nat) :
    frameLength p.val (pre ++ s) (pre.length + off) = frameLength p.val s off := by
  have hrem : (pre ++ s).length - (pre.length + off) = s.length - off := by
    rw [List.length_append, Nat.add_sub_add_left]
  have hstop (l : Nat) : pre.length + (off + 4 + l + p.val.mbusFooter) - 1 = pre.length + (off + 4 + l + p.val.mbusFooter - 1) :=
    Nat.add_sub_assoc (by omega) _
  rw [frameChecksInOrder p (pre ++ s), frameChecksInOrder p s, hrem]
  simp only [Nat.add_assoc pre.length, hstop, getD_append_shift]

theorem payloadSpan_append_shift (p : Params) (pre s : Bytes) (off l : Nat) :
    payloadSpan p (pre ++ s) (pre.length + off) l = payloadSpan p s off l := by
  simp only [payloadSpan, Nat.add_assoc pre.length, slice_append_shift]

theorem frameEnd_add (p : Params) (n off l : Nat) : frameEnd p (n + off) l = n + frameEnd p off l := by
  simp only [frameEnd, Nat.add_assoc]

/-- The loop from an offset past some leading bytes is the loop over what follows them. -/
theorem reassembleFrom_append_shift (p : LegalParams) (pre s : Bytes) (passes off : Nat) (pb : Bytes) :
    reassembleFrom p.val (pre ++ s) passes (pre.length + off) pb = reassembleFrom p.val s passes off pb := by
  induction passes generalizing off pb with
  | zero => rfl
  | succ passes ih =>
    simp only [reassembleFrom, frameLength_append_shift, payloadSpan_append_shift, frameEnd_add, List.length_append,
      Nat.add_le_add_iff_left, ih]

/-! ## One pass of the loop -/

section Pass

variable {p : Params} {raw pb : Bytes} {off l : Nat} {c : Cause}

/-- A frame that fails a check ends the loop with the check's cause. -/
theorem reassembleFrom_of_error (h : frameLength p raw off = .error c) (passes : Nat) :
    reassembleFrom p raw (passes + 1) off pb = .error c := by
  rw [reassembleFrom, h, except_error_bind]

/-- The frame that reaches the end of RAW is the last one (R191). -/
theorem reassembleFrom_of_last (h : frameLength p raw off = .ok l) (hend : raw.length ≤ frameEnd p off l) (passes : Nat) :
    reassembleFrom p raw (passes + 1) off pb = .ok (pb ++ payloadSpan p raw off l) := by
  rw [reassembleFrom, h, except_ok_bind, if_pos hend]
  rfl

/-- After any other frame the loop goes on at the byte past it (R191). -/
theorem reassembleFrom_of_more (h : frameLength p raw off = .ok l) (hend : frameEnd p off l < raw.length) (passes : Nat) :
    reassembleFrom p raw (passes + 1) off pb =
      reassembleFrom p raw passes (frameEnd p off l) (pb ++ payloadSpan p raw off l) := by
  rw [reassembleFrom, h, except_ok_bind, if_neg (Nat.not_le.2 hend)]

end Pass

/-! ## A valid frame -/

section ValidFrame

variable {p : LegalParams} {f : Frame}

/-- The frame's extent is the one its length byte declares. -/
theorem Frame.Valid.length_bytes (h : f.Valid p.val) :
    (f.bytes p.val).length = frameEnd p.val 0 (f.link.length + f.payload.length) := by
  obtain ⟨-, hfooter, -⟩ := h
  have hmarker := (Params.frame_of_legal p).2
  simp only [Frame.bytes, frameEnd, Params.mbusIntro_of_legal, List.length_append, List.length_cons, List.length_nil]
  omega

/-- The byte that the length pair repeats holds the frame's L (R110). -/
theorem Frame.Valid.lengthByte_toNat (h : f.Valid p.val) :
    (BitVec.ofNat 8 (f.link.length + f.payload.length)).toNat = f.link.length + f.payload.length := by
  obtain ⟨-, -, hfits⟩ := h
  rw [BitVec.toNat_ofNat, Nat.mod_eq_of_lt hfits]

/-- The last byte of a valid frame's extent is the stop marker. -/
theorem Frame.Valid.stopByte (h : f.Valid p.val) (rest : Bytes) :
    (f.bytes p.val ++ rest).getD (frameEnd p.val 0 (f.link.length + f.payload.length) - 1) 0#8 = p.val.mbusStop := by
  have hne : f.bytes p.val ≠ [] := nofun
  have hlast : (f.bytes p.val).length - 1 < (f.bytes p.val).length := Nat.sub_one_lt_of_lt (List.length_pos_iff.2 hne)
  rw [← h.length_bytes, List.getD_append _ _ _ _ hlast, List.getD_eq_getElem _ _ hlast, ← List.getLast_eq_getElem hne]
  exact List.getLast_concat

/-- A valid frame passes every check, whatever follows it. -/
theorem Frame.Valid.frameLength_bytes (h : f.Valid p.val) (rest : Bytes) :
    frameLength p.val (f.bytes p.val ++ rest) 0 = .ok (f.link.length + f.payload.length) := by
  have hlength := h.length_bytes
  have hstop := h.stopByte rest
  have hbyte := h.lengthByte_toNat
  have hlen0 : (f.bytes p.val ++ rest).getD (0 + 1) 0#8 = BitVec.ofNat 8 (f.link.length + f.payload.length) := rfl
  have hlen1 : (f.bytes p.val ++ rest).getD (0 + 2) 0#8 = BitVec.ofNat 8 (f.link.length + f.payload.length) := rfl
  have hmarkers : ¬((f.bytes p.val ++ rest).getD 0 0#8 ≠ p.val.mbusStart ∨
      (f.bytes p.val ++ rest).getD (0 + 3) 0#8 ≠ p.val.mbusStart) := fun hbad => hbad.elim (· rfl) (· rfl)
  obtain ⟨hlink, -, -⟩ := h
  simp only [frameEnd, Params.mbusIntro_of_legal] at hlength hstop hlink
  rw [frameChecksInOrder p (f.bytes p.val ++ rest), hlen0, hlen1, hbyte, hstop, List.length_append, if_neg (by omega),
    if_neg hmarkers, if_neg (not_not.2 rfl), if_neg (by omega), if_neg (not_not.2 rfl), if_neg (by omega)]

/-- What stands before a valid frame's payload is its full header. -/
theorem Frame.Valid.exists_header (h : f.Valid p.val) : ∃ header : Bytes, header.length = p.val.mbusFullHdr ∧
    f.bytes p.val = header ++ (f.payload ++ (f.footer ++ [p.val.mbusStop])) := by
  obtain ⟨hlink, -, -⟩ := h
  have hheader := (Params.frame_of_legal p).1
  rw [Params.mbusIntro_of_legal] at hlink
  refine ⟨_, ?_, by rw [Frame.bytes, List.append_assoc, List.append_assoc]⟩
  simp only [List.length_append, List.length_cons, List.length_nil]
  omega

/-- The payload span of a valid frame is its payload (R190). -/
theorem Frame.Valid.payloadSpan_bytes (h : f.Valid p.val) (rest : Bytes) :
    payloadSpan p.val (f.bytes p.val ++ rest) 0 (f.link.length + f.payload.length) = f.payload := by
  obtain ⟨header, hheader, hbytes⟩ := h.exists_header
  obtain ⟨hlink, -, -⟩ := h
  have hintro := (Params.frame_of_legal p).1
  rw [Params.mbusIntro_of_legal] at hlink
  have hend : 4 + (f.link.length + f.payload.length) = p.val.mbusFullHdr + f.payload.length := by omega
  rw [payloadSpan, Params.mbusIntro_of_legal, Nat.zero_add, Nat.zero_add, hend, slice_eq_take_drop, hbytes, List.append_assoc,
    List.drop_left' hheader, List.append_assoc, List.take_left]

/-- One pass takes one valid frame that more bytes follow, and the loop goes on as over those bytes alone. -/
theorem Frame.Valid.reassembleFrom_append (h : f.Valid p.val) {rest : Bytes} (hrest : rest ≠ []) (passes : Nat) (pb : Bytes) :
    reassembleFrom p.val (f.bytes p.val ++ rest) (passes + 1) 0 pb = reassembleFrom p.val rest passes 0 (pb ++ f.payload) := by
  have hmore : frameEnd p.val 0 (f.link.length + f.payload.length) < (f.bytes p.val ++ rest).length := by
    rw [List.length_append, h.length_bytes]
    exact Nat.lt_add_of_pos_right (List.length_pos_iff.2 hrest)
  rw [reassembleFrom_of_more (h.frameLength_bytes rest) hmore, h.payloadSpan_bytes, ← h.length_bytes]
  exact reassembleFrom_append_shift p (f.bytes p.val) rest passes 0 _

/-- A valid frame at the end of RAW ends the loop with its payload appended. -/
theorem Frame.Valid.reassembleFrom_last (h : f.Valid p.val) (passes : Nat) (pb : Bytes) :
    reassembleFrom p.val (f.bytes p.val) (passes + 1) 0 pb = .ok (pb ++ f.payload) := by
  have hlength := h.frameLength_bytes []
  have hspan := h.payloadSpan_bytes []
  rw [List.append_nil] at hlength hspan
  rw [reassembleFrom_of_last hlength h.length_bytes.le, hspan]

end ValidFrame

/-! ## A run of valid frames -/

section ValidFrames

variable {p : LegalParams} {fs : List Frame}

theorem length_le_length_flatMap_bytes (p : Params) (fs : List Frame) : fs.length ≤ (fs.flatMap (Frame.bytes p)).length := by
  induction fs with
  | nil => exact Nat.zero_le _
  | cons f fs ih =>
    have hpos : 0 < (f.bytes p).length := List.length_pos_iff.2 nofun
    rw [List.flatMap_cons, List.length_append, List.length_cons]
    omega

/-- As many passes as there are frames take them all, when more bytes follow. -/
theorem reassembleFrom_flatMap_bytes (hvalid : ∀ f ∈ fs, f.Valid p.val) {rest : Bytes} (hrest : rest ≠ []) (passes : Nat)
    (pb : Bytes) : reassembleFrom p.val (fs.flatMap (Frame.bytes p.val) ++ rest) (passes + fs.length) 0 pb =
      reassembleFrom p.val rest passes 0 (pb ++ fs.flatMap Frame.payload) := by
  induction fs generalizing pb with
  | nil => simp only [List.flatMap_nil, List.nil_append, List.append_nil, List.length_nil, Nat.add_zero]
  | cons f fs ih =>
    obtain ⟨hf, hfs⟩ := List.forall_mem_cons.1 hvalid
    have hmore : fs.flatMap (Frame.bytes p.val) ++ rest ≠ [] := List.append_ne_nil_of_right_ne_nil _ hrest
    rw [List.flatMap_cons, List.append_assoc, List.length_cons, ← Nat.add_assoc, hf.reassembleFrom_append hmore, ih hfs,
      List.flatMap_cons, List.append_assoc]

/-- The count of passes covers a run of frames and one pass more: the frames are taken, and the loop goes on over the rest. -/
theorem reassemble_flatMap_bytes (hvalid : ∀ f ∈ fs, f.Valid p.val) {rest : Bytes} (hrest : rest ≠ []) :
    ∃ passes, reassemble p.val (fs.flatMap (Frame.bytes p.val) ++ rest) =
      reassembleFrom p.val rest (passes + 1) 0 (fs.flatMap Frame.payload) := by
  have hframes := length_le_length_flatMap_bytes p.val fs
  obtain ⟨n, hn⟩ := Nat.exists_eq_add_of_le' hframes
  refine ⟨n + rest.length, ?_⟩
  have hpasses : (fs.flatMap (Frame.bytes p.val) ++ rest).length + 1 = n + rest.length + 1 + fs.length := by
    rw [List.length_append, hn]
    omega
  rw [reassemble, hpasses, reassembleFrom_flatMap_bytes hvalid hrest, List.nil_append]

theorem reassemble_of_valid (hvalid : ∀ f ∈ fs, f.Valid p.val) (hne : fs ≠ []) :
    reassemble p.val (fs.flatMap (Frame.bytes p.val)) = .ok (fs.flatMap Frame.payload) := by
  obtain ⟨init, last, rfl⟩ := List.eq_nil_or_concat' fs |>.resolve_left hne
  obtain ⟨hinit, hlast⟩ := List.forall_mem_append.1 hvalid
  have hbytes : last.bytes p.val ≠ [] := nofun
  obtain ⟨passes, hrun⟩ := reassemble_flatMap_bytes hinit hbytes
  rw [List.flatMap_append, List.flatMap_singleton, hrun, (hlast last (List.mem_singleton_self last)).reassembleFrom_last,
    List.flatMap_append, List.flatMap_singleton]

/-- A frame that fails a check after valid frames, or as the first, aborts the whole (R182, R191). -/
theorem reassemble_append_of_error (hvalid : ∀ f ∈ fs, f.Valid p.val) {rest : Bytes} {c : Cause} (hrest : rest ≠ [] ∨ fs = [])
    (herror : frameLength p.val rest 0 = .error c) :
    reassemble p.val (fs.flatMap (Frame.bytes p.val) ++ rest) = .error c := by
  rcases hrest with hrest | rfl
  · obtain ⟨passes, hrun⟩ := reassemble_flatMap_bytes hvalid hrest
    rw [hrun, reassembleFrom_of_error herror]
  · exact reassembleFrom_of_error herror _

end ValidFrames

/-- Settles O51: both cuts of a payload reassemble to its bytes in order. -/
theorem reassemblyJoinsThePayloads : Obligations.ReassemblyJoinsThePayloads := by
  refine ⟨fun p fs hne hvalid => reassemble_of_valid hvalid hne, fun p fs f hne hvalid hf hpayload => ?_,
    fun p fs rest c hvalid hrest herror => reassemble_append_of_error hvalid hrest herror⟩
  have hone : reassemble p.val ([f].flatMap (Frame.bytes p.val)) = .ok ([f].flatMap Frame.payload) :=
    reassemble_of_valid (List.forall_mem_singleton.2 hf) (List.cons_ne_nil f [])
  rw [List.flatMap_singleton, List.flatMap_singleton] at hone
  rw [reassemble_of_valid hvalid hne, hone, hpayload]

end Sys2Proof.Machine
end

section
/-! The envelope (42_envelope.md R211 to R227): the declared length and the header checks as an ordered chain, the spans of PB that
passing headers leave to the cipher, and what opening the envelope answers from there. -/

namespace Sys2Proof.Machine

/-! ## The header checks -/

theorem be16_toNat (b0 b1 : Byte) : (be16 b0 b1).toNat = b0.toNat * 256 + b1.toNat := by
  rw [be16, BitVec.toNat_append, ← Nat.shiftLeft_add_eq_or_of_lt b1.isLt, Nat.shiftLeft_eq]

/-- In the extended form the two bytes past the sentinel hold the length (R214). -/
theorem messageLength_of_extended {p : LegalParams} {pb : Bytes} (hmin : 16 ≤ pb.length)
    (hext : pb.getD 10 0#8 = p.val.dlmsLenExt) :
    messageLength p.val pb = .ok ((pb.getD 11 0#8).toNat * 256 + (pb.getD 12 0#8).toNat, 2) := by
  rw [messageLength, readByte_bind_of_lt (by omega), if_pos hext, readByte_bind_of_lt (by omega),
    readByte_bind_of_lt (by omega), be16_toNat, Params.dlmsHdrExt_of_legal]
  rfl

/-- In the short form the byte is the length (R214). -/
theorem messageLength_of_short {p : Params} {pb : Bytes} (hmin : 16 ≤ pb.length) (hshort : pb.getD 10 0#8 ≠ p.dlmsLenExt) :
    messageLength p pb = .ok ((pb.getD 10 0#8).toNat, 0) := by
  rw [messageLength, readByte_bind_of_lt (by omega), if_neg hshort]
  rfl

/-- Settles O52: the minimum size puts every byte read before the security control in range, and the header shift is at most 2, so
the security control is in range as well (R225). -/
theorem envelopeChecksInOrder : Obligations.EnvelopeChecksInOrder := by
  intro p pb m h hext hshort
  simp only [parseHeader, Params.dlmsMin_of_legal, Params.dlmsSystLen_of_legal, Params.dlmsHdr_of_legal, abortIf_bind,
    decide_eq_true_eq]
  refine ite_congr rfl (fun _ => rfl) fun hsize => ?_
  have hmin : 16 ≤ pb.length := Nat.le_of_not_lt hsize
  obtain ⟨hlength, hshift⟩ : messageLength p.val pb = .ok (m, h) ∧ h ≤ 2 := by
    by_cases he : pb.getD 10 0#8 = p.val.dlmsLenExt
    · obtain ⟨rfl, rfl⟩ := hext he
      exact ⟨messageLength_of_extended hmin he, le_rfl⟩
    · obtain ⟨rfl, rfl⟩ := hshort he
      exact ⟨messageLength_of_short hmin he, Nat.zero_le 2⟩
  have hsyst : (pb.getD 1 0#8).toNat ≠ 8 ↔ pb.getD 1 0#8 ≠ 8#8 := (BitVec.toNat_inj (y := 8#8)).not
  rw [readByte_bind_of_lt (by omega)]
  refine ite_congr rfl (fun _ => rfl) fun _ => ?_
  rw [readByte_bind_of_lt (by omega), hlength, except_ok_bind]
  refine ite_congr (propext hsyst) (fun _ => rfl) fun _ => ite_congr rfl (fun _ => rfl) fun hcorr => ?_
  rw [Nat.cast_sub (Nat.le_of_not_lt hcorr)]
  refine ite_congr rfl (fun _ => rfl) fun _ => ite_congr rfl (fun _ => rfl) fun _ => ?_
  rw [readByte_bind_of_lt (by omega)]
  rfl

/-! ## What passing headers leave to the cipher -/

section Spans

variable {p : LegalParams} {pb : Bytes} {hi : HeaderInfo}

/-- The ciphertext and the tag fill PB after the shifted header (R216, R219). -/
theorem length_of_parseHeader (h : parseHeader p.val pb = .ok hi) : pb.length = 16 + hi.h + hi.clen + p.val.tagLen := by
  obtain ⟨hlength, -, -⟩ := parseHeader_inv p.val pb hi h
  rw [Params.dlmsHdr_of_legal] at hlength
  omega

theorem nonce_eq (p : LegalParams) (pb : Bytes) (hi : HeaderInfo) :
    nonce p.val pb hi = (pb.drop 2).take 8 ++ (pb.drop (12 + hi.h)).take 4 := by
  rw [nonce, Params.dlmsSystLen_of_legal, Params.nonceLen_of_legal, slice_eq_take_drop, slice_eq_take_drop]

theorem ciphertext_eq (p : LegalParams) (pb : Bytes) (hi : HeaderInfo) :
    ciphertext p.val pb hi = (pb.drop (16 + hi.h)).take hi.clen := by
  rw [ciphertext, Params.dlmsHdr_of_legal, slice_eq_take_drop]

/-- The tag is all that PB holds after the ciphertext. -/
theorem authTag_eq_drop (h : parseHeader p.val pb = .ok hi) : authTag p.val pb hi = pb.drop (16 + hi.h + hi.clen) := by
  rw [authTag, Params.dlmsHdr_of_legal, ← length_of_parseHeader h, slice, List.take_length]

theorem length_nonce (h : parseHeader p.val pb = .ok hi) : (nonce p.val pb hi).length = 12 := by
  have hlength := length_of_parseHeader h
  rw [nonce_eq, List.length_append, List.length_take, List.length_take, List.length_drop, List.length_drop]
  omega

theorem length_ciphertext (h : parseHeader p.val pb = .ok hi) : (ciphertext p.val pb hi).length = hi.clen := by
  have hlength := length_of_parseHeader h
  rw [ciphertext_eq, List.length_take, List.length_drop]
  omega

theorem length_authTag (h : parseHeader p.val pb = .ok hi) : (authTag p.val pb hi).length = p.val.tagLen := by
  rw [authTag_eq_drop h, List.length_drop, length_of_parseHeader h, Nat.add_sub_cancel_left]

end Spans

/-! ## The key, the decryption and the markers -/

/-- The marker at index 5 is read only of a plaintext that has it (R226). -/
theorem checkStructure_eq (p : Params) (pt : Bytes) : checkStructure p pt =
    if pt.length < 6 then .error .structuralShort
    else if pt.getD 0 0#8 ≠ p.ptMark0 ∨ pt.getD 5 0#8 ≠ p.ptMark5 then .error .structuralBadMarker
    else .ok () := by
  simp only [checkStructure, abortIf_bind, decide_eq_true_eq]
  refine ite_congr rfl (fun _ => rfl) fun hlength => ?_
  rw [readByte_bind_of_lt (by omega), readByte_bind_of_lt (by omega), abortIf]
  simp only [Bool.or_eq_true, decide_eq_true_eq]

section Open

variable {p : Params} {key pb pt : Bytes} {hi : HeaderInfo}

/-- Without a key the headers are checked and nothing else (R221). -/
theorem openEnvelope_of_no_key (h : parseHeader p pb = .ok hi) : openEnvelope p key false pb = .error .cryptoNoKey := by
  rw [openEnvelope, h]
  rfl

theorem openEnvelope_of_tag_mismatch (h : parseHeader p pb = .ok hi)
    (hg : gcmAD key (nonce p pb hi) (ciphertext p pb hi) (authTag p pb hi) p.tagLen = none) :
    openEnvelope p key true pb = .error .cryptoTagMismatch := by
  have hd : decrypt p key true pb hi = .error .cryptoTagMismatch := by
    rw [decrypt, hg]
    rfl
  rw [openEnvelope, h, except_ok_bind, hd, except_error_bind]

/-- What the cipher opens has its markers checked, and is the plaintext when they pass. -/
theorem openEnvelope_of_plaintext (h : parseHeader p pb = .ok hi)
    (hg : gcmAD key (nonce p pb hi) (ciphertext p pb hi) (authTag p pb hi) p.tagLen = some pt) :
    openEnvelope p key true pb =
      if pt.length < 6 then .error .structuralShort
      else if pt.getD 0 0#8 ≠ p.ptMark0 ∨ pt.getD 5 0#8 ≠ p.ptMark5 then .error .structuralBadMarker
      else .ok pt := by
  have hd : decrypt p key true pb hi = .ok pt := by
    rw [decrypt, hg]
    rfl
  rw [openEnvelope, h, except_ok_bind, hd, except_ok_bind, checkStructure_eq]
  split_ifs <;> rfl

end Open

/-- Settles O53: `iv`, `c` and `t` are the nonce, the ciphertext and the tag of the model; then by whether a key is loaded and what
the cipher answers. -/
theorem envelopeDecryptsThenChecksMarkers : Obligations.EnvelopeDecryptsThenChecksMarkers := by
  intro p key loaded pb iv c t hi h hiv hc ht
  rw [← nonce_eq p] at hiv
  rw [← ciphertext_eq p] at hc
  rw [← authTag_eq_drop h] at ht
  subst hiv hc ht
  refine ⟨length_nonce h, length_ciphertext h, length_authTag h, ?_⟩
  cases loaded with
  | false => exact openEnvelope_of_no_key h
  | true =>
    rw [if_neg Bool.false_ne_true.symm]
    cases hg : gcmAD key (nonce p.val pb hi) (ciphertext p.val pb hi) (authTag p.val pb hi) p.val.tagLen with
    | none => exact openEnvelope_of_tag_mismatch h hg
    | some pt => exact openEnvelope_of_plaintext h hg

end Sys2Proof.Machine
end

section
/-! The byte field of AES (43_aes_gcm.md R242, R243): an inverse is unique there, so the one that the search finds is the one
that the S-box table gives back when the formula's affine part is undone. -/

namespace Sys2Proof.Machine

/-! ## The product of two bytes -/

@[simp] theorem xtime_zero : xtime 0#8 = 0#8 := rfl

theorem xtime_xor (a b : Byte) : xtime (a ^^^ b) = xtime a ^^^ xtime b := by
  have hreduce : ∀ p q : Bool, (if p ^^ q then 0x1B#8 else 0#8) =
      (if p then 0x1B#8 else 0#8) ^^^ (if q then 0x1B#8 else 0#8) := by decide
  rw [xtime, BitVec.msb_xor, BitVec.shiftLeft_xor_distrib, hreduce, xtime, xtime]
  ac_rfl

@[simp] theorem gmulBits_zero (b : Byte) (n i : Nat) : gmulBits b n i 0#8 = 0#8 := by
  induction n generalizing i with
  | zero => rfl
  | succ n ih => simp [gmulBits, ih]

theorem gmulBits_xor (b : Byte) (n i : Nat) (a a' : Byte) :
    gmulBits b n i (a ^^^ a') = gmulBits b n i a ^^^ gmulBits b n i a' := by
  induction n generalizing i a a' with
  | zero => exact BitVec.xor_self.symm
  | succ n ih =>
    simp only [gmulBits, xtime_xor, ih]
    split
    · ac_rfl
    · simp only [BitVec.zero_xor]

theorem gmulBits_xtime (b : Byte) (n i : Nat) (a : Byte) : gmulBits b n i (xtime a) = xtime (gmulBits b n i a) := by
  induction n generalizing i a with
  | zero => exact xtime_zero.symm
  | succ n ih =>
    simp only [gmulBits, xtime_xor, ih]
    split <;> simp

theorem gmul_xtime_left (a b : Byte) : gmul (xtime a) b = xtime (gmul a b) := gmulBits_xtime b 8 0 a

theorem gmul_zero_left (b : Byte) : gmul 0#8 b = 0#8 := gmulBits_zero b 8 0

/-- Multiplying by `c` is linear and goes past `xtime`, so it goes past each term of the sum that a product is. -/
theorem gmul_gmulBits (b : Byte) (n i : Nat) (a c : Byte) : gmul (gmulBits b n i a) c = gmulBits b n i (gmul a c) := by
  induction n generalizing i a with
  | zero => exact gmul_zero_left c
  | succ n ih =>
    have hterm : gmul (if b.getLsbD i then a else 0#8) c = if b.getLsbD i then gmul a c else 0#8 := by
      split
      · rfl
      · exact gmul_zero_left c
    calc gmul (gmulBits b (n + 1) i a) c
        = gmul (if b.getLsbD i then a else 0#8) c ^^^ gmul (gmulBits b n (i + 1) (xtime a)) c := gmulBits_xor c 8 0 _ _
      _ = (if b.getLsbD i then gmul a c else 0#8) ^^^ gmulBits b n (i + 1) (xtime (gmul a c)) := by
          rw [hterm, ih, gmul_xtime_left]

theorem gmul_right_comm (a b c : Byte) : gmul (gmul a b) c = gmul (gmul a c) b := gmul_gmulBits b 8 0 a c

theorem gmul_one_left : ∀ b : Byte, gmul 1#8 b = b := by decide +kernel

/-! ## The inverse -/

theorem gmul_inverse_unique {a b c : Byte} (hb : gmul a b = 1#8) (hc : gmul a c = 1#8) : b = c :=
  calc b = gmul (gmul a c) b := by rw [hc, gmul_one_left]
    _ = gmul (gmul a b) c := gmul_right_comm a c b
    _ = c := by rw [hb, gmul_one_left]

theorem mem_allBytes (b : Byte) : b ∈ (List.range 256).map (BitVec.ofNat 8) :=
  List.mem_map.2 ⟨b.toNat, List.mem_range.2 b.isLt, BitVec.ofNat_toNat 8 b⟩

/-- The search of `ginv` ends at the only inverse there is. -/
theorem ginv_eq_of_gmul_eq_one {a b : Byte} (h : gmul a b = 1#8) : ginv a = b := by
  rw [ginv]
  cases hfind : ((List.range 256).map (BitVec.ofNat 8)).find? (fun b => decide (gmul a b = 1#8)) with
  | none => exact absurd (decide_eq_true h) (List.find?_eq_none.1 hfind b (mem_allBytes b))
  | some c =>
    have hc := List.find?_some hfind
    exact gmul_inverse_unique (of_decide_eq_true hc) h

@[simp] theorem ginv_zero : ginv 0#8 = 0#8 := by
  have hnone : ((List.range 256).map (BitVec.ofNat 8)).find? (fun b => decide (gmul 0#8 b = 1#8)) = none := by
    simp [gmul_zero_left]
  rw [ginv, hnone]
  rfl

/-! ## The S-box -/

/-- The affine part of the S-box formula (R243), applied to an inverse `b`. -/
def sboxAffine (b : Byte) : Byte :=
  b ^^^ b.rotateLeft 1 ^^^ b.rotateLeft 2 ^^^ b.rotateLeft 3 ^^^ b.rotateLeft 4 ^^^ 0x63#8

theorem sboxFormula_eq (x : Byte) : sboxFormula x = sboxAffine (ginv x) := rfl

/-- The affine map that undoes `sboxAffine`. -/
def sboxUnaffine (y : Byte) : Byte := y.rotateLeft 1 ^^^ y.rotateLeft 3 ^^^ y.rotateLeft 6 ^^^ 0x05#8

theorem sboxAffine_unaffine : ∀ y : Byte, sboxAffine (sboxUnaffine y) = y := by decide +kernel

/-- The check of the table, entry by entry: with the affine part undone, each entry but the first is the inverse of its index. -/
theorem gmul_unaffine_sbox : ∀ x : Byte, x ≠ 0#8 → gmul x (sboxUnaffine (sbox x)) = 1#8 := by decide +kernel

theorem ginv_eq_unaffine_sbox (x : Byte) : ginv x = sboxUnaffine (sbox x) := by
  by_cases hx : x = 0#8
  · subst hx
    exact ginv_zero
  · exact ginv_eq_of_gmul_eq_one (gmul_unaffine_sbox x hx)

/-- Settles O54: the table's entries are inverses under the affine part, and an inverse is unique. -/
theorem sboxTableIsItsFormula : Obligations.SboxTableIsItsFormula := by
  intro x
  refine ⟨?_, fun hx => ?_, ?_⟩
  · rw [sboxFormula_eq, ginv_eq_unaffine_sbox, sboxAffine_unaffine]
  · rw [ginv_eq_unaffine_sbox, gmul_unaffine_sbox x hx]
  · rintro rfl
    exact ginv_zero

end Sys2Proof.Machine
end

section
/-! GCM (43_aes_gcm.md R255, R257): GCTR is the XOR with a keystream that is at least as long as its input, so it keeps the length
and undoes itself; the decryption answers by whether the tag is the right one. -/

namespace Sys2Proof.Machine

/-! ## XOR of byte strings -/

theorem xorBytes_append_right (s k l : Bytes) :
    xorBytes s (k ++ l) = xorBytes (s.take k.length) k ++ xorBytes (s.drop k.length) l := by
  induction k generalizing s with
  | nil => simp [xorBytes]
  | cons b k ih =>
    cases s with
    | nil => rfl
    | cons x s => exact congrArg ((x ^^^ b) :: ·) (ih s)

theorem xorBytes_xorBytes_cancel {s k : Bytes} (h : s.length ≤ k.length) : xorBytes (xorBytes s k) k = s := by
  refine List.ext_getElem (by simp [h]) fun i _ _ => ?_
  simp [xorBytes]

/-! ## GCTR -/

/-- The keystream of GCTR: `n` blocks from the counter block `cb` on (R255). -/
def keystream (ws : List Bytes) : Nat → Bytes → Bytes
  | 0, _ => []
  | n + 1, cb => aesWith ws cb ++ keystream ws n (inc32 cb)

theorem le_ceil16 (n : Nat) : n ≤ 16 * ceil16 n := by
  unfold ceil16
  omega

section Key
variable {k : Bytes} (hk : k.length = 16)
include hk

theorem keystream_length (n : Nat) (cb : Bytes) : (keystream (keySchedule k) n cb).length = 16 * n := by
  induction n generalizing cb with
  | zero => rfl
  | succ n ih =>
    rw [keystream, List.length_append, aesWith_length k cb hk, ih]
    omega

theorem gctrLoop_blocks (n : Nat) (s cb : Bytes) :
    gctrLoop (keySchedule k) (blocks n s) cb = xorBytes s (keystream (keySchedule k) n cb) := by
  induction n generalizing s cb with
  | zero => simp [blocks, gctrLoop, keystream, xorBytes]
  | succ n ih => rw [blocks, gctrLoop, ih, keystream, xorBytes_append_right, aesWith_length k cb hk]

theorem gctr_eq_xorBytes (icb s : Bytes) :
    gctr (keySchedule k) icb s = xorBytes s (keystream (keySchedule k) (ceil16 s.length) icb) :=
  gctrLoop_blocks hk _ s icb

theorem length_le_keystream (icb s : Bytes) : s.length ≤ (keystream (keySchedule k) (ceil16 s.length) icb).length := by
  rw [keystream_length hk]
  exact le_ceil16 s.length

theorem gctr_length (icb s : Bytes) : (gctr (keySchedule k) icb s).length = s.length := by
  rw [gctr_eq_xorBytes hk, xorBytes_length, Nat.min_eq_left (length_le_keystream hk icb s)]

theorem gctr_gctr (icb s : Bytes) : gctr (keySchedule k) icb (gctr (keySchedule k) icb s) = s := by
  rw [gctr_eq_xorBytes hk icb (gctr _ icb s), gctr_length hk, gctr_eq_xorBytes hk,
    xorBytes_xorBytes_cancel (length_le_keystream hk icb s)]

end Key

/-! ## The decryption -/

theorem gcmAD_of_tag_eq {k iv c t : Bytes} {n : Nat} (h : gcmTag (keySchedule k) iv c n = t) :
    gcmAD k iv c t n = some (gctr (keySchedule k) (inc32 (preCounter iv)) c) := if_pos h

theorem gcmAD_of_tag_ne {k iv c t : Bytes} {n : Nat} (h : gcmTag (keySchedule k) iv c n ≠ t) : gcmAD k iv c t n = none :=
  if_neg h

theorem gcmAD_eq_some_iff {k iv c t pt : Bytes} {n : Nat} :
    gcmAD k iv c t n = some pt ↔
      gcmTag (keySchedule k) iv c n = t ∧ gctr (keySchedule k) (inc32 (preCounter iv)) c = pt := by
  by_cases h : gcmTag (keySchedule k) iv c n = t
  · rw [gcmAD_of_tag_eq h, Option.some_inj, and_iff_right h]
  · simp [gcmAD_of_tag_ne h, h]

/-- Settles O55: the tag is the right one, and GCTR undoes itself. -/
theorem gcmDecryptsWhatASenderEncrypts : Obligations.GcmDecryptsWhatASenderEncrypts := by
  rintro k iv pt c n hk rfl
  rw [gcmAD_of_tag_eq rfl, gctr_gctr hk]

/-- Settles O56: GCTR keeps the length, and the tag that passed is the only one that passes. -/
theorem gcmKeepsLengthAndRejectsOtherTags : Obligations.GcmKeepsLengthAndRejectsOtherTags := by
  intro k iv c t pt n hk h
  obtain ⟨rfl, rfl⟩ := gcmAD_eq_some_iff.1 h
  exact ⟨gctr_length hk _ c, fun t' ht' => gcmAD_of_tag_ne ht'.symm⟩

end Sys2Proof.Machine
end

section
/-! The record decoder's registers (44_record_decoder.md R282 to R314): what each part of a record answers as a function of PT, the
cursor and the code, and what the loop over the records does with a pass. -/

namespace Sys2Proof.Machine

/-! ## Bytes of PT -/

section Reads

variable {d : Decoding} {i : Nat} {b : Byte}

theorem Decoding.rd_of_some (h : d.pt[i]? = some b) : d.rd i = .ok b := (readByte_eq_ok d.pt i _ b).2 h

theorem Decoding.rd_of_none (h : d.pt[i]? = none) : d.rd i = .error .obisTruncated :=
  readByte_of_ge d.pt i _ (List.getElem?_eq_none_iff.1 h)

theorem Decoding.rd_bind_of_lt {α : Type} (h : i < d.pt.length) (f : Byte → Except Cause α) :
    (d.rd i >>= f) = f (d.pt.getD i 0#8) :=
  readByte_bind_of_lt h _ f

theorem Decoding.rd_bind_of_ge {α : Type} (h : d.pt.length ≤ i) (f : Byte → Except Cause α) :
    (d.rd i >>= f) = .error .obisTruncated := by
  rw [Decoding.rd, readByte_of_ge d.pt i _ h, except_error_bind]

/-- A read before a part that raises TRUNCATED whatever was read raises TRUNCATED, in range or not. -/
theorem Decoding.rd_bind_of_truncated {α : Type} {f : Byte → Except Cause α} (h : ∀ b, f b = .error .obisTruncated) :
    (d.rd i >>= f) = .error .obisTruncated := by
  rcases Nat.lt_or_ge i d.pt.length with hlt | hge
  · rw [Decoding.rd_bind_of_lt hlt, h]
  · exact Decoding.rd_bind_of_ge hge f

end Reads

theorem toNat_append_byte {n : Nat} (x : BitVec n) (b : Byte) : (x ++ b).toNat = x.toNat * 2 ^ 8 + b.toNat := by
  rw [BitVec.toNat_append, ← Nat.shiftLeft_add_eq_or_of_lt b.isLt, Nat.shiftLeft_eq]

theorem be32_toNat (b0 b1 b2 b3 : Byte) :
    (be32 b0 b1 b2 b3).toNat = b0.toNat * 2 ^ 24 + b1.toNat * 2 ^ 16 + b2.toNat * 2 ^ 8 + b3.toNat := by
  simp only [be32, toNat_append_byte]
  omega

theorem be16_setWidth_toNat (b0 b1 : Byte) : ((be16 b0 b1).setWidth 32).toNat = b0.toNat * 2 ^ 8 + b1.toNat := by
  rw [BitVec.toNat_setWidth_of_le (by decide), be16, toNat_append_byte]

/-! ## The record header -/

/-- The checks of a record header as one chain (R282 to R284): a missing byte is TRUNCATED at its own place in the order, and the
six code bytes are all there or one of their reads fails. -/
theorem recordHeader_eq (p : LegalParams) (d : Decoding) : recordHeader p.val d =
    if d.pt.length ≤ d.cur then .error .obisTruncated
    else if d.pt.getD d.cur 0#8 ≠ p.val.tagOctet then .error .obisBadHeaderType
    else if d.pt.length ≤ d.cur + 1 then .error .obisTruncated
    else if d.pt.getD (d.cur + 1) 0#8 ≠ 6#8 then .error .obisBadHeaderLen
    else if d.pt.length < d.cur + 8 then .error .obisTruncated
    else .ok { d with
      cur := d.cur + 8
      code := #v[d.pt.getD (d.cur + 2) 0#8, d.pt.getD (d.cur + 3) 0#8, d.pt.getD (d.cur + 4) 0#8, d.pt.getD (d.cur + 5) 0#8,
        d.pt.getD (d.cur + 6) 0#8, d.pt.getD (d.cur + 7) 0#8] } := by
  have hsix : (d.pt.getD (d.cur + 1) 0#8).toNat ≠ 6 ↔ d.pt.getD (d.cur + 1) 0#8 ≠ 6#8 := (BitVec.toNat_inj (y := 6#8)).not
  simp only [recordHeader, Params.obisCodeLen_of_legal, abortIf_bind, decide_eq_true_eq]
  split
  · next h => rw [Decoding.rd_bind_of_ge h]
  next htag =>
  rw [Decoding.rd_bind_of_lt (Nat.lt_of_not_le htag)]
  refine ite_congr rfl (fun _ => rfl) fun _ => ?_
  split
  · next h => rw [Decoding.rd_bind_of_ge h]
  next hlen =>
  rw [Decoding.rd_bind_of_lt (Nat.lt_of_not_le hlen)]
  refine ite_congr (propext hsix) (fun _ => rfl) fun _ => ?_
  split
  · next h =>
    iterate 5 refine Decoding.rd_bind_of_truncated fun _ => ?_
    exact Decoding.rd_bind_of_ge (Nat.le_of_lt_succ h) _
  · next hcode =>
    iterate 6 rw [Decoding.rd_bind_of_lt (by omega)]
    rfl

/-! ## The data-type tag -/

theorem fetchTag_of_none {d : Decoding} (h : d.pt[d.cur]? = none) (p : Params) : fetchTag p d = .error .obisTruncated := by
  rw [fetchTag, Decoding.rd_of_none h, except_error_bind]

theorem fetchTag_of_classify_error {p : Params} {d : Decoding} {b : Byte} {c : Cause} (h : d.pt[d.cur]? = some b)
    (hc : classify p d.code = .error c) : fetchTag p d = .error c := by
  rw [fetchTag, Decoding.rd_of_some h, except_ok_bind, hc, except_error_bind]

theorem fetchTag_of_classify_ok {p : Params} {d : Decoding} {b : Byte} {ct : Option CodeType} (h : d.pt[d.cur]? = some b)
    (hc : classify p d.code = .ok ct) : fetchTag p d = .ok { d with dt := b, cur := d.cur + 1, ct := ct, v := d.cur + 1 } := by
  rw [fetchTag, Decoding.rd_of_some h, except_ok_bind, hc]
  rfl

/-- A tag byte that is none of the three decodes to nothing. -/
theorem exists_decodeTag_eq_error {p : LegalParams} {b : Byte} (h32 : b ≠ p.val.tagU32) (h16 : b ≠ p.val.tagU16)
    (ho : b ≠ p.val.tagOctet) : ∃ r, decodeTag p.val b = .error r := by
  cases h : decodeTag p.val b with
  | error r => exact ⟨r, rfl⟩
  | ok i => simp [decodeTag_eq_ok_iff, h32, h16, ho] at h

theorem tagOperation_of_error {p : Params} {d : Decoding} {r : DecodeReject} (h : decodeTag p d.dt = .error r) :
    tagOperation p d = .error .obisBadDataType := by
  simp only [tagOperation, h]

/-! ## Numeric values -/

theorem MeasurementSet.storeNum_of_numeric (ms : MeasurementSet) {ct : Option CodeType} {k : CodeType} (hct : ct = some k)
    (h : k.index < 13) (r : Reading) : ms.storeNum ct r = { ms with num := ms.num.set k.index (some r) h } := by
  rw [hct]
  exact dif_pos h

/-- Any code-type but a numeric one, and Unknown, discards the value (R288, R289). -/
theorem MeasurementSet.storeNum_of_not_numeric (ms : MeasurementSet) {ct : Option CodeType}
    (h : ∀ k : CodeType, ct = some k → 13 ≤ k.index) (r : Reading) : ms.storeNum ct r = ms := by
  cases ct with
  | none => rfl
  | some k => exact dif_neg (Nat.not_lt.2 (h k rfl))

/-- The scale code of a U16 value, by the byte 5 past the value start (R303). -/
theorem scaleCode_eq (p : LegalParams) (pt : Bytes) (v : Nat) : scaleCode p.val pt v =
    if pt.length ≤ v + 5 then 0#2 else if pt.getD (v + 5) 0#8 = 0xFF#8 then 1#2
      else if pt.getD (v + 5) 0#8 = 0xFE#8 then 2#2 else 0#2 := by
  rw [scaleCode, Params.scalerOff_of_legal, Params.scale10_of_legal, Params.scale100_of_legal]
  rcases Nat.lt_or_ge (v + 5) pt.length with h | h
  · rw [List.getElem?_eq_getElem h, if_neg (Nat.not_le.2 h), List.getD_eq_getElem _ _ h]
  · rw [List.getElem?_eq_none h, if_pos h]

theorem u32Value_of_short {d : Decoding} (h : d.pt.length < d.v + 4) : u32Value d = .error .obisTruncated := by
  rw [u32Value, abortIf_bind, if_pos (decide_eq_true h)]

theorem u32Value_of_le {d : Decoding} (h : d.v + 4 ≤ d.pt.length) : u32Value d = .ok { d with
    ms := d.ms.storeNum d.ct ⟨be32 (d.pt.getD d.v 0#8) (d.pt.getD (d.v + 1) 0#8) (d.pt.getD (d.v + 2) 0#8)
      (d.pt.getD (d.v + 3) 0#8), 0#2⟩
    dlen := 4 } := by
  rw [u32Value, abortIf_bind, if_neg (by simpa using h)]
  iterate 4 rw [Decoding.rd_bind_of_lt (by omega)]
  rfl

theorem u16Value_of_short {d : Decoding} (h : d.pt.length < d.v + 2) (p : Params) : u16Value p d = .error .obisTruncated := by
  rw [u16Value, abortIf_bind, if_pos (decide_eq_true h)]

theorem u16Value_of_le {d : Decoding} (h : d.v + 2 ≤ d.pt.length) (p : Params) : u16Value p d = .ok { d with
    ms := d.ms.storeNum d.ct ⟨(be16 (d.pt.getD d.v 0#8) (d.pt.getD (d.v + 1) 0#8)).setWidth 32, scaleCode p d.pt d.v⟩
    dlen := 2 } := by
  rw [u16Value, abortIf_bind, if_neg (by simpa using h)]
  iterate 2 rw [Decoding.rd_bind_of_lt (by omega)]
  rfl

/-! ## Octet strings -/

theorem timestampOf_of_short {val : Bytes} (h : val.length < 8) : timestampOf val = none := by
  unfold timestampOf
  split
  · simp only [List.length_cons] at h
    omega
  · rfl

/-- The fields of a timestamp at their byte offsets; byte 4 is none of them (R306). -/
def Timestamp.ofBytes (val : Bytes) : Timestamp :=
  ⟨be16 (val.getD 0 0#8) (val.getD 1 0#8), val.getD 2 0#8, val.getD 3 0#8, val.getD 5 0#8, val.getD 6 0#8, val.getD 7 0#8⟩

theorem Timestamp.ofBytes_year (val : Bytes) :
    (Timestamp.ofBytes val).year.toNat = (val.getD 0 0#8).toNat * 2 ^ 8 + (val.getD 1 0#8).toNat :=
  be16_toNat _ _

theorem timestampOf_of_le {val : Bytes} (h : 8 ≤ val.length) : timestampOf val = some (Timestamp.ofBytes val) := by
  match val, h with
  | _ :: _ :: _ :: _ :: _ :: _ :: _ :: _ :: _, _ => rfl

theorem storeOctets_timestamp_of_short (ms : MeasurementSet) {val : Bytes} (h : val.length < 8) :
    storeOctets ms (some .timestamp) val = .error .obisTsShort := by
  simp only [storeOctets, timestampOf_of_short h]

theorem storeOctets_timestamp_of_le (ms : MeasurementSet) {val : Bytes} (h : 8 ≤ val.length) :
    storeOctets ms (some .timestamp) val = .ok { ms with ts := some (Timestamp.ofBytes val) } := by
  simp only [storeOctets, timestampOf_of_le h]

/-- Any code-type but the three that hold octets, and Unknown, discards the string (R289, R305). -/
theorem storeOctets_of_other (ms : MeasurementSet) {ct : Option CodeType} (hs : ct ≠ some .serialNumber)
    (hn : ct ≠ some .deviceName) (ht : ct ≠ some .timestamp) (val : Bytes) : storeOctets ms ct val = .ok ms := by
  unfold storeOctets
  split
  · exact absurd rfl ht
  · exact absurd rfl hs
  · exact absurd rfl hn
  · rfl

/-- An octet string is TRUNCATED where its length byte or one of its bytes is missing (R304). -/
theorem octetValue_of_short {d : Decoding} (h : ∀ n : Byte, d.pt[d.cur]? = some n → d.pt.length < d.cur + 1 + n.toNat) :
    octetValue d = .error .obisTruncated := by
  cases hn : d.pt[d.cur]? with
  | none => rw [octetValue, Decoding.rd_of_none hn, except_error_bind]
  | some n => rw [octetValue, Decoding.rd_of_some hn, except_ok_bind, abortIf_bind, if_pos (decide_eq_true (h n hn))]

/-- An octet string that is in PT is stored by its code-type. -/
theorem octetValue_of_le {d : Decoding} {n : Byte} (hn : d.pt[d.cur]? = some n) (h : d.cur + 1 + n.toNat ≤ d.pt.length) :
    octetValue d = storeOctets d.ms d.ct ((d.pt.drop (d.cur + 1)).take n.toNat) >>= fun ms =>
      .ok { d with ms := ms, cur := d.cur + 1, dlen := n.toNat } := by
  rw [octetValue, Decoding.rd_of_some hn, except_ok_bind, abortIf_bind, if_neg (by simpa using h), slice_eq_take_drop]
  rfl

/-! ## The advance and one pass of the loop -/

/-- Past the value and the break, and META_SKIP more where the metadata sentinel stands there (R307, R308). -/
theorem recordAdvance_eq (p : LegalParams) (d : Decoding) : recordAdvance p.val d = { d with
    cur := d.cur + d.dlen + 2 + if d.pt[d.cur + d.dlen + 2]? = some 0x0F#8 then p.val.metaSkip else 0 } := by
  simp only [recordAdvance, Params.recBreak_of_legal, Params.metaSentinel_of_legal]
  split <;> rfl

/-- A record is its header, its value from the tag on, and the advance. -/
theorem decodeRecord_eq (p : Params) (d : Decoding) : decodeRecord p d =
    recordHeader p d >>= fun d₁ => (fetchTag p d₁ >>= tagOperation p) >>= fun d₂ => .ok (recordAdvance p d₂) := by
  simp only [bind_assoc]
  rfl

theorem decodeRecord_eq_ok_iff (p : Params) (d d' : Decoding) : decodeRecord p d = .ok d' ↔
    ∃ d₁, recordHeader p d = .ok d₁ ∧ ∃ d₂, (fetchTag p d₁ >>= tagOperation p) = .ok d₂ ∧ recordAdvance p d₂ = d' := by
  simp only [decodeRecord_eq, except_bind_eq_ok, Except.ok.injEq]

/-- An operation leaves PT, and takes the cursor and the length of the value on by at least the two bytes of U16, or by the
length byte of OCTET. -/
theorem tagOperation_cur {p : Params} {d d' : Decoding} (h : tagOperation p d = .ok d') :
    d.cur + 1 ≤ d'.cur + d'.dlen ∧ d'.pt = d.pt := by
  rcases tagOperation_inv p d d' h with ⟨-, hv⟩ | ⟨-, hv⟩ | ⟨-, hv⟩
  · obtain ⟨x, -, rfl⟩ := u32Value_inv d d' hv
    exact ⟨Nat.add_le_add_left (by decide : 1 ≤ 4) _, rfl⟩
  · obtain ⟨x, -, rfl⟩ := u16Value_inv p d d' hv
    exact ⟨Nat.add_le_add_left (by decide : 1 ≤ 2) _, rfl⟩
  · obtain ⟨n, ms, -, -, rfl⟩ := octetValue_inv d d' hv
    exact ⟨Nat.le_add_right _ _, rfl⟩

/-- Every pass leaves PT and raises the cursor: 8 bytes of header, the tag, the value, 2 bytes of break (R314). -/
theorem decodeRecord_cur {p : LegalParams} {d d' : Decoding} (h : decodeRecord p.val d = .ok d') :
    d.cur + 11 ≤ d'.cur ∧ d'.pt = d.pt := by
  obtain ⟨d₁, hheader, d₃, hvalue, rfl⟩ := (decodeRecord_eq_ok_iff p.val d d').1 h
  obtain ⟨d₂, hfetch, hop⟩ := (except_bind_eq_ok _ _ _).1 hvalue
  obtain ⟨code, rfl, -⟩ := recordHeader_inv p.val d d₁ hheader
  obtain ⟨dt, ct, -, -, rfl⟩ := fetchTag_inv p.val _ d₂ hfetch
  obtain ⟨hcur, hpt⟩ := tagOperation_cur hop
  rw [recordAdvance_eq]
  simp only at hcur hpt ⊢
  exact ⟨by omega, hpt⟩

/-! ## The loop -/

section Loop

variable {p : Params} {d d' : Decoding} {c : Cause}

theorem recordLoop_of_error (h : decodeRecord p d = .error c) (passes : Nat) : recordLoop p (passes + 1) d = .error c := by
  rw [recordLoop, h, except_error_bind]

/-- Past the end of PT no record follows, and the set is the decode's (R309, R312). -/
theorem recordLoop_of_last (h : decodeRecord p d = .ok d') (hend : d'.pt.length ≤ d'.cur) (passes : Nat) :
    recordLoop p (passes + 1) d = .ok d'.ms := by
  rw [recordLoop, h, except_ok_bind, if_neg (Nat.not_lt.2 hend)]
  rfl

theorem recordLoop_of_more (h : decodeRecord p d = .ok d') (hmore : d'.cur < d'.pt.length) (passes : Nat) :
    recordLoop p (passes + 1) d = recordLoop p passes d' := by
  rw [recordLoop, h, except_ok_bind, if_pos hmore]

end Loop

/-- A count of passes that reaches past the end of PT still does after a pass that leaves the cursor inside PT, and is not used
up there. -/
theorem passes_of_decodeRecord {p : LegalParams} {d d' : Decoding} {passes : Nat} (hr : decodeRecord p.val d = .ok d')
    (hpasses : d.pt.length < d.cur + (passes + 1)) (hmore : d'.cur < d'.pt.length) :
    d'.pt.length < d'.cur + passes ∧ 0 < passes := by
  obtain ⟨hcur, hpt⟩ := decodeRecord_cur hr
  rw [hpt] at hmore ⊢
  omega

/-- Such a count is never used up: one pass more changes nothing (log entry 14). -/
theorem recordLoop_succ_of_enough {p : LegalParams} {d : Decoding} {passes : Nat} (hpasses : d.pt.length < d.cur + passes)
    (hpos : 0 < passes) : recordLoop p.val passes d = recordLoop p.val (passes + 1) d := by
  induction passes generalizing d with
  | zero => exact absurd hpos (lt_irrefl 0)
  | succ passes ih =>
    cases hr : decodeRecord p.val d with
    | error c => rw [recordLoop_of_error hr, recordLoop_of_error hr]
    | ok d' =>
      rcases Nat.lt_or_ge d'.cur d'.pt.length with hmore | hend
      · obtain ⟨hpasses', hpos'⟩ := passes_of_decodeRecord hr hpasses hmore
        rw [recordLoop_of_more hr hmore, recordLoop_of_more hr hmore, ih hpasses' hpos']
      · rw [recordLoop_of_last hr hend, recordLoop_of_last hr hend]

/-- A plaintext that ends before its first record has no header byte to read (R313). -/
theorem decodeRecords_of_no_record (p : LegalParams) {pt : Bytes} (h : pt.length ≤ p.val.decStart) :
    decodeRecords p.val pt = .error .obisTruncated := by
  refine recordLoop_of_error ?_ _
  have hshort : (startDecoding p.val pt).pt.length ≤ (startDecoding p.val pt).cur := h
  rw [decodeRecord_eq, recordHeader_eq, if_pos hshort, except_error_bind]

end Sys2Proof.Machine
end

section
/-! The record decoder on the engine's state (44_record_decoder.md R281 to R314, log entry 4): what a step does at each place in a
record, what the three data-type operations leave, and that the steps of a decode end as the decode inside one event. -/

namespace Sys2Proof.Machine

/-! ## A step inside a decode -/

theorem State.decoderStep_ok (s : State) (ph : Phase) (d : Decoding) :
    s.decoderStep ph (.ok d) = { s with phase := ph, dec := d } := rfl

theorem State.decoderStep_error (s : State) (ph : Phase) (c : Cause) : s.decoderStep ph (.error c) = s.abort c := rfl

/-- A decoder step leaves nothing of the place and the registers that the state had. -/
theorem State.decoderStep_setDecoding (s : State) (ph ph' : Phase) (d : Decoding) (r : Except Cause Decoding) :
    (s.setDecoding ph d).decoderStep ph' r = s.decoderStep ph' r := by
  cases r <;> rfl

theorem step_of_header {s : State} (hp : s.phase = .header) :
    step s = .next (s.decoderStep .tag (recordHeader s.par.val s.dec)) := by
  simp only [step, nextAction, hp]
  rfl

theorem step_of_fetchTag_error {s : State} (hp : s.phase = .tag) {c : Cause} (hf : fetchTag s.par.val s.dec = .error c) :
    step s = .next (s.abort c) := by
  simp only [step, nextAction, hp, tagAction, hf]

/-- A tag that is none of the three runs nothing (R311). -/
theorem step_of_unknown_tag {s : State} (hp : s.phase = .tag) {d : Decoding} (hf : fetchTag s.par.val s.dec = .ok d)
    {r : DecodeReject} (hd : decodeTag s.par.val d.dt = .error r) : step s = .next (s.abort .obisBadDataType) := by
  simp only [step, nextAction, hp, tagAction, hf, hd]

/-- At a tag that decodes, the step runs its instruction on the registers that the fetch leaves (R300). -/
theorem step_of_fetchTag_ok {s : State} (hp : s.phase = .tag) {d : Decoding} (hf : fetchTag s.par.val s.dec = .ok d)
    {i : Instr} (hd : decodeTag s.par.val d.dt = .ok i) : step s = exec i (s.setDecoding .tag d) := by
  simp only [step, nextAction, hp, tagAction, hf, hd]

/-- An instruction that a tag decodes to is the tag's operation on the registers. -/
theorem exec_of_decodeTag {s : State} {i : Instr} (hd : decodeTag s.par.val s.dec.dt = .ok i) :
    exec i s = .next (s.decoderStep .advance (tagOperation s.par.val s.dec)) := by
  rcases decodeTag_cases _ _ _ hd with ⟨rfl, -⟩ | ⟨rfl, -⟩ | ⟨rfl, -⟩ <;> simp only [tagOperation, hd] <;> rfl

/-- At a tag, the step is the fetch and then the tag's operation, whatever the tag. -/
theorem step_of_tag {s : State} (hp : s.phase = .tag) :
    step s = .next (s.decoderStep .advance (fetchTag s.par.val s.dec >>= tagOperation s.par.val)) := by
  cases hf : fetchTag s.par.val s.dec with
  | error c => exact step_of_fetchTag_error hp hf
  | ok d =>
    rw [except_ok_bind]
    cases hd : decodeTag s.par.val d.dt with
    | error r =>
      rw [tagOperation_of_error hd]
      exact step_of_unknown_tag hp hf hd
    | ok i =>
      rw [step_of_fetchTag_ok hp hf hd, exec_of_decodeTag hd, State.decoderStep_setDecoding]
      rfl

/-- Where a decode goes on after a record: at the next one, or at the delivery (R309, R312). -/
def State.afterRecord (s : State) (d : Decoding) : State :=
  if d.cur < d.pt.length then s.setDecoding .header d else s.deliver d.ms

theorem State.afterRecord_of_more (s : State) {d : Decoding} (h : d.cur < d.pt.length) :
    s.afterRecord d = s.setDecoding .header d := if_pos h

theorem State.afterRecord_of_last (s : State) {d : Decoding} (h : d.pt.length ≤ d.cur) : s.afterRecord d = s.deliver d.ms :=
  if_neg (Nat.not_lt.2 h)

theorem step_of_advance {s : State} (hp : s.phase = .advance) : step s = .next (s.afterRecord (recordAdvance s.par.val s.dec)) := by
  simp only [step, nextAction, hp]
  rfl

/-! ## A decode run step by step -/

theorem stepN_succ {s t : State} (h : step s = .next t) (n : Nat) : stepN (n + 1) s = stepN n t := by
  rw [stepN, h]

theorem step_setDecoding_header (s : State) (d : Decoding) :
    step (s.setDecoding .header d) = .next (s.decoderStep .tag (recordHeader s.par.val d)) := by
  rw [step_of_header (s := s.setDecoding .header d) rfl, State.decoderStep_setDecoding]
  rfl

theorem step_setDecoding_tag (s : State) (d : Decoding) :
    step (s.setDecoding .tag d) = .next (s.decoderStep .advance (fetchTag s.par.val d >>= tagOperation s.par.val)) := by
  rw [step_of_tag (s := s.setDecoding .tag d) rfl, State.decoderStep_setDecoding]
  rfl

theorem step_setDecoding_advance (s : State) (d : Decoding) :
    step (s.setDecoding .advance d) = .next (s.afterRecord (recordAdvance s.par.val d)) :=
  step_of_advance (s := s.setDecoding .advance d) rfl

section Record

variable {s : State} {d d' : Decoding} {c : Cause}

/-- A record that decodes takes three steps. -/
theorem stepN_of_decodeRecord_ok (h : decodeRecord s.par.val d = .ok d') (n : Nat) :
    stepN (n + 3) (s.setDecoding .header d) = stepN n (s.afterRecord d') := by
  obtain ⟨d₁, hheader, d₂, hvalue, rfl⟩ := (decodeRecord_eq_ok_iff _ _ _).1 h
  have header := step_setDecoding_header s d
  have tag := step_setDecoding_tag s d₁
  rw [hheader] at header
  rw [hvalue] at tag
  rw [stepN_succ header]
  exact (stepN_succ tag (n + 1)).trans (stepN_succ (step_setDecoding_advance s d₂) n)

/-- A record that does not decode aborts in its first step or its second. -/
theorem exists_stepN_of_decodeRecord_error (h : decodeRecord s.par.val d = .error c) :
    ∃ n ≤ 2, stepN n (s.setDecoding .header d) = .next (s.abort c) := by
  rw [decodeRecord_eq] at h
  have header := step_setDecoding_header s d
  cases hheader : recordHeader s.par.val d with
  | error c₁ =>
    rw [hheader] at h header
    cases h
    exact ⟨1, by decide, stepN_succ header 0⟩
  | ok d₁ =>
    rw [hheader] at h header
    rw [except_ok_bind] at h
    have tag := step_setDecoding_tag s d₁
    cases hvalue : fetchTag s.par.val d₁ >>= tagOperation s.par.val with
    | error c₂ =>
      rw [hvalue] at h tag
      cases h
      exact ⟨2, le_rfl, (stepN_succ header 1).trans (stepN_succ tag 0)⟩
    | ok d₂ =>
      rw [hvalue] at h
      cases h

end Record

/-- From a record's start the steps end as the loop does, with at most three steps for each pass that it may take. -/
theorem exists_stepN_of_recordLoop (s : State) (d : Decoding) (passes : Nat) (hpasses : d.pt.length < d.cur + passes)
    (hpos : 0 < passes) :
    ∃ n ≤ 3 * passes, stepN n (s.setDecoding .header d) = .next (s.finish (recordLoop s.par.val passes d)) := by
  induction passes generalizing d with
  | zero => exact absurd hpos (lt_irrefl 0)
  | succ passes ih =>
    cases hr : decodeRecord s.par.val d with
    | error c =>
      obtain ⟨n, hn, hrun⟩ := exists_stepN_of_decodeRecord_error hr
      exact ⟨n, by omega, by rw [hrun, recordLoop_of_error hr]; rfl⟩
    | ok d' =>
      rcases Nat.lt_or_ge d'.cur d'.pt.length with hmore | hend
      · obtain ⟨hpasses', hpos'⟩ := passes_of_decodeRecord hr hpasses hmore
        obtain ⟨n, hn, hrun⟩ := ih d' hpasses' hpos'
        refine ⟨n + 3, by omega, ?_⟩
        rw [stepN_of_decodeRecord_ok hr, State.afterRecord_of_more s hmore, hrun, recordLoop_of_more hr hmore]
      · refine ⟨0 + 3, by omega, ?_⟩
        rw [stepN_of_decodeRecord_ok hr, State.afterRecord_of_last s hend, recordLoop_of_last hr hend]
        rfl

/-! ## The data-type operations -/

theorem exec_u32 (s : State) : exec .u32 s = .next (s.decoderStep .advance (u32Value s.dec)) := rfl

theorem exec_u16 (s : State) : exec .u16 s = .next (s.decoderStep .advance (u16Value s.par.val s.dec)) := rfl

theorem exec_octet (s : State) : exec .octet s = .next (s.decoderStep .advance (octetValue s.dec)) := rfl

/-! ## The statements -/

/-- Settles O41, by whether the four bytes are in PT and whether the code-type is numeric. -/
theorem u32DecodesAValue : Obligations.U32DecodesAValue := by
  refine ⟨fun p => (decodeTag_eq_ok_iff p _ _).2 (.inl ⟨rfl, rfl⟩), fun s ct h hfits hct => ⟨_, be32_toNat _ _ _ _, ?_⟩,
    fun s hfits hct => ?_, fun s hshort => ?_⟩
  · rw [exec_u32, u32Value_of_le hfits, MeasurementSet.storeNum_of_numeric _ hct h, State.decoderStep_ok]
  · rw [exec_u32, u32Value_of_le hfits, MeasurementSet.storeNum_of_not_numeric _ hct, State.decoderStep_ok]
  · rw [exec_u32, u32Value_of_short hshort, State.decoderStep_error]

/-- Settles O42, by whether the two bytes are in PT and whether the code-type is numeric. -/
theorem u16DecodesAScaledValue : Obligations.U16DecodesAScaledValue := by
  refine ⟨fun p => (decodeTag_eq_ok_iff p _ _).2 (.inr (.inl ⟨rfl, rfl⟩)),
    fun s ct h hfits hct => ⟨_, _, be16_setWidth_toNat _ _, scaleCode_eq s.par _ _, ?_⟩, fun s hfits hct => ?_,
    fun s hshort => ?_⟩
  · rw [exec_u16, u16Value_of_le hfits, MeasurementSet.storeNum_of_numeric _ hct h, State.decoderStep_ok]
  · rw [exec_u16, u16Value_of_le hfits, MeasurementSet.storeNum_of_not_numeric _ hct, State.decoderStep_ok]
  · rw [exec_u16, u16Value_of_short hshort, State.decoderStep_error]

/-- Settles O43, by what the code-type stores. -/
theorem octetDecodesAString : Obligations.OctetDecodesAString := by
  refine ⟨fun p => (decodeTag_eq_ok_iff p _ _).2 (.inr (.inr ⟨rfl, rfl⟩)), fun s n hn hfits => ?_, fun s hshort => ?_⟩
  · have hlength : ((s.dec.pt.drop (s.dec.cur + 1)).take n.toNat).length = n.toNat := by
      rw [List.length_take, List.length_drop]
      omega
    have hexec := exec_octet s
    rw [octetValue_of_le hn hfits] at hexec
    refine ⟨_, _, rfl, hlength, rfl, fun hct => ?_, fun hct => ?_, fun hct h8 => ?_, fun hct h8 => ?_, fun hs hname hts => ?_⟩
    · rw [hexec, hct]
      rfl
    · rw [hexec, hct]
      rfl
    · refine ⟨_, Timestamp.ofBytes_year _, rfl, rfl, rfl, rfl, rfl, ?_⟩
      rw [hexec, hct, storeOctets_timestamp_of_le _ (hlength.symm ▸ h8)]
      rfl
    · rw [hexec, hct, storeOctets_timestamp_of_short _ (hlength.symm ▸ h8), except_error_bind, State.decoderStep_error]
    · rw [hexec, storeOctets_of_other _ hs hname hts]
      rfl
  · rw [exec_octet, octetValue_of_short hshort, State.decoderStep_error]

/-- Settles O45. -/
theorem recordHeaderChecksInOrder : Obligations.RecordHeaderChecksInOrder := by
  refine ⟨fun s hp => ?_, recordHeader_eq⟩
  rw [step_of_header hp]
  cases recordHeader s.par.val s.dec <;> rfl

/-- Settles O48. -/
theorem recordLoopEnds : Obligations.RecordLoopEnds :=
  ⟨fun _ _ _ => decodeRecord_cur, fun _ _ _ => recordLoop_succ_of_enough, fun p _ => decodeRecords_of_no_record p⟩

/-- Settles O49: the count of passes that a decode starts with is past the end of PT. -/
theorem steppedDecodeEqualsAtomicDecode : Obligations.SteppedDecodeEqualsAtomicDecode := by
  intro s pt
  have hpasses : pt.length < s.par.val.decStart + (pt.length + 1) := by omega
  exact exists_stepN_of_recordLoop s (startDecoding s.par.val pt) (pt.length + 1) hpasses (Nat.succ_pos _)

/-- Settles O7: the phase is at a tag already, so only the registers change before the instruction runs. -/
theorem stepRunsTheDecodedTag : Obligations.StepRunsTheDecodedTag := by
  intro s b ct i hp hb hct hd
  rw [step_of_fetchTag_ok hp (fetchTag_of_classify_ok hb hct) hd, State.setDecoding, ← hp]

/-- Settles O44, by which part at the tag fails first. -/
theorem unknownTagAborts : Obligations.UnknownTagAborts := by
  refine ⟨fun s hp hnone => step_of_fetchTag_error hp (fetchTag_of_none hnone _), fun s b hp hb he ha => ?_,
    fun s b ct hp hb hct h32 h16 ho => ?_⟩
  · obtain ⟨hmedium, -⟩ := classificationFollowsTheTable s.par s.dec.code
    exact step_of_fetchTag_error hp (fetchTag_of_classify_error hb (hmedium he ha))
  · obtain ⟨r, hr⟩ := exists_decodeTag_eq_error h32 h16 ho
    exact step_of_unknown_tag hp (fetchTag_of_classify_ok hb hct) hr

/-- Settles O47: the statement's `c` is the cursor that the advance leaves. -/
theorem advanceSkipsBreakAndMetadata : Obligations.AdvanceSkipsBreakAndMetadata := by
  rintro s c hp rfl
  rw [step_of_advance hp, recordAdvance_eq]
  exact ⟨fun hmore => congrArg _ (State.afterRecord_of_more s hmore), fun hend => congrArg _ (State.afterRecord_of_last s hend)⟩

end Sys2Proof.Machine
end

section
/-! The host's configuration commands (45_host_and_sink.md R345 to R356), the delivery's output registers (R341), and what the Sink
derives from them (R343, R344). -/

namespace Sys2Proof.Machine

/-! ## The commands' outcomes -/

theorem exec_nop (s : State) : exec .nop s = .next s := rfl

theorem exec_keyb (i : BitVec 4) (b : Byte) (s : State) : exec (.keyb i b) s = .next (s.writeKey i b) := rfl

theorem exec_setto (v : BitVec 24) (s : State) : exec (.setto v) s = .next (s.setTimeout v) := rfl

theorem exec_setctl (a : BitVec 1) (s : State) : exec (.setctl a) s = .next (s.setAuto a) := rfl

theorem exec_setie (m : BitVec 3) (s : State) : exec (.setie m) s = .next (s.setIrqEn m) := rfl

theorem exec_clrirq (m : BitVec 3) (s : State) : exec (.clrirq m) s = .next (s.clearIrq m) := rfl

/-- The word that the encoder gives a command decodes to it; no parameter matters to either. -/
theorem decodeCmd_of_encode {i : Instr} {w : BitVec 32} (h : encode Config.defaultParams i = .cmd w) : decodeCmd w = .ok i :=
  (encode_eq_cmd_iff Config.defaultParams i w).1 h

/-! ## KEY and KEY_MASK -/

theorem State.writeKey_key_getElem (s : State) (i : BitVec 4) (b : Byte) (j : Fin 16) :
    (s.writeKey i b).key[j] = if j.val = i.toNat then b else s.key[j] := by
  simp only [State.writeKey_key, Fin.getElem_fin, Vector.getElem_set, eq_comm (a := i.toNat)]

theorem State.writeKey_keyMask_getLsbD (s : State) (i : BitVec 4) (b : Byte) (j : Fin 16) :
    (s.writeKey i b).keyMask.getLsbD j = (decide (j.val = i.toNat) || s.keyMask.getLsbD j) := by
  have hbit : (1#16 <<< i.toNat).getLsbD j = decide (j.val = i.toNat) := by
    rw [← BitVec.twoPow_eq, BitVec.getLsbD_twoPow, decide_eq_true i.isLt, Bool.true_and]
    exact decide_eq_decide.2 eq_comm
  rw [State.writeKey_keyMask, BitVec.getLsbD_or, hbit, Bool.or_comm]

/-- Of two writes of the same index the last one stands. -/
theorem State.writeKey_writeKey (s : State) (i : BitVec 4) (b c : Byte) : (s.writeKey i b).writeKey i c = s.writeKey i c := by
  simp only [State.writeKey, Vector.set_set, BitVec.or_assoc, BitVec.or_self]

theorem State.keyLoaded_iff (s : State) : s.keyLoaded = true ↔ ∀ j : Fin 16, s.keyMask.getLsbD j = true := by
  have hones (j : Fin 16) : (0xFFFF#16).getLsbD j = true := (BitVec.getLsbD_allOnes (v := 16)).trans (decide_eq_true j.isLt)
  rw [State.keyLoaded, decide_eq_true_eq]
  constructor
  · intro h j
    rw [h, hones]
  · intro h
    exact BitVec.eq_of_getLsbD_eq fun j hj => (h ⟨j, hj⟩).trans (hones ⟨j, hj⟩).symm

/-! ## Interrupts -/

theorem State.irq_iff (s : State) : s.irq = true ↔ s.irqPend &&& s.irqEn ≠ 0#3 := decide_eq_true_iff

theorem State.clearIrq_irqPend_getLsbD (s : State) (m : BitVec 3) (i : Fin 3) :
    (s.clearIrq m).irqPend.getLsbD i = (s.irqPend.getLsbD i && !m.getLsbD i) := by
  rw [State.clearIrq_irqPend, BitVec.getLsbD_and, BitVec.getLsbD_not, decide_eq_true i.isLt, Bool.true_and]

/-! ## The output registers -/

/-- OUT_VALID at the index of a code-type says whether the set has the code-type. -/
theorem validBits_index (ms : MeasurementSet) (ct : CodeType) : ms.validBits.getLsbD ct.index = ms.has ct := by
  cases ct <;> exact validBits_getLsbD ms _ (by decide)

/-- A length of at most 255 fits its length register. -/
theorem toNat_ofNat_byte {n : Nat} (h : n ≤ 255) : (BitVec.ofNat 8 n).toNat = n := by
  rw [BitVec.toNat_ofNat, Nat.mod_eq_of_lt (by omega)]

/-! ## The statements -/

/-- Settles O11, by the laws of KEYB's one write. -/
theorem keybWritesOneKeyByte : Obligations.KeybWritesOneKeyByte := fun s i b =>
  ⟨decodeCmd_of_encode rfl, _, exec_keyb i b s, rfl, State.writeKey_key_getElem s i b, State.writeKey_keyMask_getLsbD s i b,
    fun c => congrArg Host.Outcome.next (State.writeKey_writeKey s i b c), State.keyLoaded_iff _⟩

/-- Settles O34, element by element. -/
theorem deliveryReplacesEveryOutput : Obligations.DeliveryReplacesEveryOutput := by
  intro ms
  refine ⟨validBits_index ms, slot_getElem ms.num, ?_, toNat_ofNat_byte, fun i => padText_getElem _ i i.isLt,
    toNat_ofNat_byte, fun i => padText_getElem _ i i.isLt⟩
  show ms.ts.getD Timestamp.zero = _
  cases ms.ts <;> rfl

/-- Settles O10: a word that decodes to NOP is the word that NOP encodes to. -/
theorem nopChangesNothing : Obligations.NopChangesNothing := by
  refine ⟨exec_nop, fun w => ?_⟩
  have hword : encode Config.defaultParams .nop = .cmd 0#32 := rfl
  rw [← encode_eq_cmd_iff Config.defaultParams, hword, Encoding.cmd.injEq, eq_comm]

/-- Settles O12: the completion test at the state with the new TIMEOUT. -/
theorem settoWritesTimeoutOnly : Obligations.SettoWritesTimeoutOnly := fun s v =>
  ⟨decodeCmd_of_encode rfl, _, exec_setto v s, rfl, State.complete_iff (s.setTimeout v)⟩

/-- Settles O13, by the value of AUTO that the TICK meets. -/
theorem setctlWritesAutoOnly : Obligations.SetctlWritesAutoOnly := fun s a =>
  ⟨decodeCmd_of_encode rfl, _, exec_setctl a s, rfl, fun h => takeEvent_tick_of_auto (s := s.setAuto a) h,
    fun h => takeEvent_tick_of_quiet (s := s.setAuto a) (.inl h)⟩

/-- Settles O14: irq is a function of the state that SETIE leaves. -/
theorem setieWritesEnablesOnly : Obligations.SetieWritesEnablesOnly := fun s m =>
  ⟨decodeCmd_of_encode rfl, _, exec_setie m s, rfl, State.irq_iff (s.setIrqEn m)⟩

/-- Settles O15, bit by bit; irq is a function of the state that CLRIRQ leaves. -/
theorem clrirqClearsTheNamedBits : Obligations.ClrirqClearsTheNamedBits := fun s m =>
  ⟨decodeCmd_of_encode rfl, _, exec_clrirq m s, rfl, State.clearIrq_irqPend_getLsbD s m, State.irq_iff (s.clearIrq m)⟩

/-- Settles O57: the rationals by arithmetic, the strings by running the Sink's function. -/
theorem sinkExamples : Obligations.SinkExamples := by
  refine ⟨?_, ?_, ?_, by decide, by decide⟩ <;> norm_num [Reading.value]

end Sys2Proof.Machine
end

section
/-! The engine's exceptions and their report (60_exceptions.md R380 to R395): the three ways that an event can end, that an abort
writes its report and nothing else, irq, and that no run from RESET stops. -/

namespace Sys2Proof.Machine

/-! ## The three ways that an event can end -/

/-- No outcome: RESULT, both counters and the outputs stay (10_state.md R32 to R34). -/
def State.ReportsNothing (s t : State) : Prop :=
  t.out = s.out ∧ t.result = s.result ∧ t.deliverCount = s.deliverCount ∧ t.errorCount = s.errorCount

/-- A delivery is reported: the outputs are the delivered set's, and the delivery is counted. -/
def State.ReportsDelivery (s t : State) : Prop :=
  ∃ ms : MeasurementSet, t.out = writeOutputs ms ∧ t.result = Result.ok ∧ t.deliverCount = s.deliverCount + 1#32 ∧
    t.errorCount = s.errorCount ∧ t.irqPend.getLsbD 0 = true

/-- An abort is reported: the outputs stay, RESULT names the cause, and the error is counted. -/
def State.ReportsAbort (s t : State) : Prop :=
  ∃ c : Cause, t.out = s.out ∧ t.result = c.result ∧ t.deliverCount = s.deliverCount ∧
    t.errorCount = s.errorCount + 1#32 ∧ t.irqPend.getLsbD 1 = true

theorem State.deliver_reports (s : State) (ms : MeasurementSet) : s.ReportsDelivery (s.deliver ms) := by
  have hpend : (s.deliver ms).irqPend.getLsbD 0 = true := by
    rw [State.deliver_irqPend, BitVec.getLsbD_or, show irqDeliver.getLsbD 0 = true from rfl, Bool.or_true]
  exact ⟨ms, rfl, rfl, rfl, rfl, hpend⟩

theorem State.abort_reports (s : State) (c : Cause) : s.ReportsAbort (s.abort c) := by
  have hpend : (s.abort c).irqPend.getLsbD 1 = true := by
    rw [State.abort_irqPend, BitVec.getLsbD_or, show irqError.getLsbD 1 = true from rfl, Bool.or_true]
  exact ⟨c, rfl, rfl, rfl, rfl, hpend⟩

/-- The end of a decode reports a delivery or an abort. -/
theorem State.finish_reports (s : State) (r : Except Cause MeasurementSet) :
    s.ReportsDelivery (s.finish r) ∨ s.ReportsAbort (s.finish r) := by
  cases r with
  | ok ms => exact .inl (s.deliver_reports ms)
  | error c => exact .inr (s.abort_reports c)

/-- Only a take and a FEED into a full buffer report. What they do before it, to NOW, LAST_ARRIVAL or the buffer, changes no
register that a report speaks of. -/
theorem EventStep.reports {s t : State} {e : Event} (h : EventStep s e t) (hreset : e ≠ .reset) :
    s.ReportsNothing t ∨ s.ReportsDelivery t ∨ s.ReportsAbort t := by
  cases h with
  | reset => exact absurd rfl hreset
  | tickTake raw => exact .inr (s.advanceNow.discardBuffer.finish_reports _)
  | checkTake _ raw => exact .inr (s.discardBuffer.finish_reports _)
  | feedFull => exact .inr (.inr (s.markArrival.abort_reports _))
  | _ => exact .inl ⟨rfl, rfl, rfl, rfl⟩

/-! ## Aborts are precise -/

/-- A decode that counts an error is an abort of the state before the take: the abort itself empties the buffer. -/
theorem State.abort_of_errorCount_ne {s : State} {r : Except Cause MeasurementSet}
    (h : (s.discardBuffer.finish r).errorCount ≠ s.errorCount) : ∃ c, s.discardBuffer.finish r = s.abort c := by
  cases r with
  | ok ms => exact absurd rfl h
  | error c => exact ⟨c, rfl⟩

theorem abort_of_exec_check {s t : State} (h : exec .check s = .next t) (herror : t.errorCount ≠ s.errorCount) :
    ∃ c, t = s.abort c := by
  rcases (execCheck_eq_next s t).1 h with ⟨-, rfl⟩ | ⟨-, raw, -, rfl⟩
  · exact absurd rfl herror
  · exact State.abort_of_errorCount_ne herror

theorem abort_of_tick {s t : State} (h : takeEvent .tick s = .next t) (herror : t.errorCount ≠ s.errorCount) :
    ∃ c, t = s.advanceNow.abort c := by
  rcases (tickEvent_eq_next s t).1 h with ⟨-, rfl⟩ | ⟨-, -, raw, -, rfl⟩
  · exact absurd rfl herror
  · exact State.abort_of_errorCount_ne (s := s.advanceNow) herror

/-! ## The report of an abort -/

/-- RESULT after an abort: 0x2 | (code << 8) | (SUB << 16) (R384). -/
theorem Cause.word_result_toNat (c : Cause) :
    c.result.word.toNat = 2 + c.kindCode.toNat * 2 ^ 8 + c.subCode.toNat * 2 ^ 16 :=
  Result.word_toNat c.result

/-- The byte fed next after an abort is the whole telegram: the buffer is empty, and it has room for one byte at least. -/
theorem exec_feed_after_abort (s : State) (c : Cause) (b : Byte) :
    ∃ u, exec (.feed b) (s.abort c) = .next u ∧ u.telegram = some [b] := by
  have hroom : (s.abort c).count.toNat < (s.abort c).par.val.bufCap := (Params.bufCap_of_legal s.par).1
  have hempty : (s.abort c).telegram = some [] := State.telegram_of_count_zero rfl
  exact ⟨_, exec_feed_of_room hroom b, State.telegram_feed hroom hempty b⟩

/-! ## irq -/

/-- Two bit vectors meet exactly where both have a bit set. -/
theorem and_ne_zero_iff_exists_getLsbD {n : Nat} (x y : BitVec n) :
    x &&& y ≠ 0#n ↔ ∃ i : Fin n, x.getLsbD i = true ∧ y.getLsbD i = true := by
  constructor
  · intro h
    by_contra hnone
    refine h (BitVec.eq_of_getLsbD_eq fun i hi => ?_)
    rw [BitVec.getLsbD_and, BitVec.getLsbD_zero]
    exact Bool.eq_false_iff.2 fun hbit => hnone ⟨⟨i, hi⟩, Bool.and_eq_true_iff.1 hbit⟩
  · rintro ⟨i, hx, hy⟩ hzero
    have hbit : (x &&& y).getLsbD i = true := by rw [BitVec.getLsbD_and, hx, hy, Bool.and_true]
    rw [hzero, BitVec.getLsbD_zero] at hbit
    cases hbit

/-! ## No run stops -/

/-- With a sound buffer every event goes on: FEED finds COUNT at most BUF_CAP, and a take finds a telegram. -/
theorem State.BufferSound.takeEvent_next {s : State} (h : s.BufferSound) (e : Event) : ∃ t, takeEvent e s = .next t := by
  cases he : takeEvent e s with
  | next t => exact ⟨t, rfl⟩
  | refused r => exact absurd he (takeEvent_ne_refused e s r)
  | fault f =>
    obtain ⟨raw, hraw⟩ := h.exists_telegram
    obtain ⟨-, -, hcap⟩ := h
    rcases fault_of_takeEvent he with ⟨-, -, hover⟩ | ⟨-, -, hnone⟩
    · exact absurd hover (Nat.not_lt.2 hcap)
    · exact absurd (hnone.symm.trans hraw) nofun

/-- Where the buffer is sound a step goes on, whether it takes an event, waits for one or goes on with a decode. -/
theorem State.BufferSound.stepSafe {s : State} (h : s.BufferSound) : s.StepSafe := by
  by_cases hp : s.phase = .idle
  · cases hi : s.inbox with
    | nil => exact ⟨s, step_of_nil hp hi⟩
    | cons e es =>
      have hsound : (s.setInbox es).BufferSound := h
      rw [State.StepSafe, step_of_cons hp hi]
      exact hsound.takeEvent_next e
  · exact step_next_of_decoding hp

/-- Every run from RESET stays in the invariant; the inbox, which events presented change, is no part of it. -/
theorem Reachable.inv {s : State} (h : Reachable s) : s.Inv := by
  induction h with
  | initial p => exact State.initial_inv p
  | present s es _ ih => exact ⟨ih.buffer, ih.result, ih.outputs, ih.decoder⟩
  | step s t _ hstep ih => exact (step_inv s t hstep).inv ih

/-! ## The statements -/

/-- Settles O33: an error counted by CHECK or TICK is an abort of the state before it. -/
theorem abortsArePrecise : Obligations.AbortsArePrecise :=
  ⟨fun _ _ => abort_of_exec_check, fun _ _ => abort_of_tick⟩

/-- Settles O39, by the cases of an event. -/
theorem eventHasAtMostOneOutcome : Obligations.EventHasAtMostOneOutcome :=
  fun s t e h hreset => (takeEvent_inv e s t h).reports hreset

/-- Settles O60: of the invariant, the sound buffer is what keeps a step from stopping. -/
theorem noReachableStateStops : Obligations.NoReachableStateStops :=
  ⟨fun _ h => h.buffer.stepSafe, fun _ h => h.inv.buffer.stepSafe⟩

/-- Settles O16. -/
theorem irqIsPendingAndEnabled : Obligations.IrqIsPendingAndEnabled := fun s =>
  ⟨(State.irq_iff s).trans (and_ne_zero_iff_exists_getLsbD s.irqPend s.irqEn), State.statusWord_getLsbD s 3⟩

/-- Settles O31, from the codes of each cause. -/
theorem abortCodes : Obligations.AbortCodes := by
  unfold Obligations.AbortCodes
  simp only [Cause.word_result_toNat]
  rfl

/-- Settles O32. -/
theorem abortWritesOnlyItsReport : Obligations.AbortWritesOnlyItsReport := fun s c =>
  ⟨s.abort c, rfl, rfl, c.word_result_toNat, exec_feed_after_abort s c⟩

end Sys2Proof.Machine
end

section
/-! The host's boot sequence (70_reset_and_hazards.md R423): RESET, a whole KEY (30_encoding.md R108), and the optional commands
that configure the engine. -/

namespace Sys2Proof.Machine

theorem takeEvent_reset (s : State) : takeEvent .reset s = .next s.resetEvent := rfl

/-! ## KEY, the sixteen KEYB commands -/

/-- The state with the whole key `k` written: the outcome of KEY k0 .. k15. -/
def State.loadKey (s : State) (k : Vector Byte 16) : State := { s with key := k, keyMask := 0xFFFF#16 }

theorem State.loadKey_keyLoaded (s : State) (k : Vector Byte 16) : (s.loadKey k).keyLoaded = true := decide_eq_true rfl

/-- `t` is `s` with the first `n` bytes of `k` written, in KEY and in KEY_MASK; the other bytes of KEY are not spoken of. -/
def State.HasKeyPrefix (s : State) (k : Vector Byte 16) (n : Nat) (t : State) : Prop :=
  t = { s with key := t.key, keyMask := t.keyMask } ∧
    ∀ j : Fin 16, j.val < n → t.key[j] = k[j] ∧ t.keyMask.getLsbD j = true

theorem State.hasKeyPrefix_zero (s : State) (k : Vector Byte 16) : s.HasKeyPrefix k 0 s :=
  ⟨rfl, fun _ hj => absurd hj (Nat.not_lt_zero _)⟩

/-- After the first `n` bytes, the write of byte `n` makes them `n + 1`. -/
theorem State.HasKeyPrefix.writeKey {s t : State} {k : Vector Byte 16} {n : Nat} (h : s.HasKeyPrefix k n t) (hn : n < 16) :
    s.HasKeyPrefix k (n + 1) (t.writeKey (BitVec.ofNat 4 n) k[n]) := by
  obtain ⟨hframe, hbytes⟩ := h
  have hindex : (BitVec.ofNat 4 n).toNat = n := by rw [BitVec.toNat_ofNat, Nat.mod_eq_of_lt hn]
  refine ⟨?_, fun j hj => ?_⟩
  · rw [hframe]
    rfl
  · rw [State.writeKey_key_getElem, State.writeKey_keyMask_getLsbD, hindex]
    by_cases hjn : j.val = n
    · simp [hjn]
    · obtain ⟨hkey, hmask⟩ := hbytes j (by omega)
      simp only [if_neg hjn, hkey, hmask, Bool.or_true, and_self]

/-- All sixteen bytes written leave no choice: KEY is `k` and KEY_MASK is full. -/
theorem State.HasKeyPrefix.eq_loadKey {s t : State} {k : Vector Byte 16} (h : s.HasKeyPrefix k 16 t) : t = s.loadKey k := by
  obtain ⟨hframe, hbytes⟩ := h
  have hkey : t.key = k := Vector.ext fun j hj => (hbytes ⟨j, hj⟩ hj).1
  have hmask : t.keyMask = 0xFFFF#16 := of_decide_eq_true ((State.keyLoaded_iff t).2 fun j => (hbytes j j.isLt).2)
  rw [hframe, hkey, hmask]
  rfl

/-- The first `n` commands of KEY k0 .. k15. -/
def keyPrefixEvents (k : Vector Byte 16) (n : Nat) : List Event :=
  (List.range n).flatMap fun i => commandEvents (.keyb (BitVec.ofNat 4 i) (k[i]?.getD 0#8))

theorem keyPrefixEvents_sixteen (k : Vector Byte 16) : keyPrefixEvents k 16 = keyEvents k := rfl

theorem keyPrefixEvents_succ (k : Vector Byte 16) {n : Nat} (hn : n < 16) :
    keyPrefixEvents k (n + 1) = keyPrefixEvents k n ++ commandEvents (.keyb (BitVec.ofNat 4 n) k[n]) := by
  simp only [keyPrefixEvents, List.range_succ, List.flatMap_append, List.flatMap_singleton, Vector.getElem?_eq_getElem hn,
    Option.getD_some]

theorem runEvents_keyPrefixEvents (s : State) (k : Vector Byte 16) {n : Nat} (hn : n ≤ 16) :
    ∃ t : State, runEvents (keyPrefixEvents k n) s = .next t ∧ s.HasKeyPrefix k n t := by
  induction n with
  | zero => exact ⟨s, rfl, State.hasKeyPrefix_zero s k⟩
  | succ n ih =>
    obtain ⟨t, hrun, hloaded⟩ := ih (Nat.le_of_succ_le hn)
    refine ⟨t.writeKey (BitVec.ofNat 4 n) k[n], ?_, hloaded.writeKey hn⟩
    rw [keyPrefixEvents_succ k hn, runEvents_append hrun]
    exact runEvents_commandEvents rfl (exec_keyb _ _ t)

theorem runEvents_keyEvents (s : State) (k : Vector Byte 16) : runEvents (keyEvents k) s = .next (s.loadKey k) := by
  obtain ⟨t, hrun, hloaded⟩ := runEvents_keyPrefixEvents s k le_rfl
  rw [← keyPrefixEvents_sixteen, hrun, hloaded.eq_loadKey]

/-! ## The optional commands -/

/-- The events of a command that may be left out. -/
def optionalEvents {α : Type} (i : α → Instr) (o : Option α) : List Event := o.elim [] fun v => commandEvents (i v)

theorem bootEvents_eq (k : Vector Byte 16) (t : Option (BitVec 24)) (m : Option (BitVec 3)) (a : Option (BitVec 1)) :
    bootEvents k t m a =
      .reset :: keyEvents k ++ optionalEvents .setto t ++ optionalEvents .setie m ++ optionalEvents .setctl a := by
  cases t <;> cases m <;> cases a <;> rfl

/-- A command that writes a register, left out, is the command that writes the value the register holds. -/
theorem runEvents_optionalEvents {α : Type} {i : α → Instr} {s : State} {write : α → State} {held : α}
    (hrun : ∀ v, runEvents (commandEvents (i v)) s = .next (write v)) (hheld : write held = s) (o : Option α) :
    runEvents (optionalEvents i o) s = .next (write (o.getD held)) := by
  cases o with
  | none => exact congrArg Host.Outcome.next hheld.symm
  | some v => exact hrun v

theorem runEvents_optional_setto (s : State) (t : Option (BitVec 24)) :
    runEvents (optionalEvents .setto t) s = .next (s.setTimeout (t.getD s.timeout)) :=
  runEvents_optionalEvents (fun v => runEvents_commandEvents rfl (exec_setto v s)) rfl t

theorem runEvents_optional_setie (s : State) (m : Option (BitVec 3)) :
    runEvents (optionalEvents .setie m) s = .next (s.setIrqEn (m.getD s.irqEn)) :=
  runEvents_optionalEvents (fun v => runEvents_commandEvents rfl (exec_setie v s)) rfl m

theorem runEvents_optional_setctl (s : State) (a : Option (BitVec 1)) :
    runEvents (optionalEvents .setctl a) s = .next (s.setAuto (a.getD s.auto)) :=
  runEvents_optionalEvents (fun v => runEvents_commandEvents rfl (exec_setctl v s)) rfl a

/-! ## The boot sequence -/

/-- The state that the boot sequence leaves: what RESET leaves, with the key loaded and the three registers configured. -/
def State.booted (s : State) (k : Vector Byte 16) (t : Option (BitVec 24)) (m : Option (BitVec 3)) (a : Option (BitVec 1)) :
    State :=
  (((s.resetEvent.loadKey k).setTimeout (t.getD s.resetEvent.timeout)).setIrqEn (m.getD s.resetEvent.irqEn)).setAuto
    (a.getD s.resetEvent.auto)

theorem runEvents_bootEvents (s : State) (k : Vector Byte 16) (t : Option (BitVec 24)) (m : Option (BitVec 3))
    (a : Option (BitVec 1)) : runEvents (bootEvents k t m a) s = .next (s.booted k t m a) := by
  simp only [bootEvents_eq, List.cons_append, List.append_assoc]
  rw [runEvents_cons (takeEvent_reset s), runEvents_append (runEvents_keyEvents s.resetEvent k),
    runEvents_append (runEvents_optional_setto _ t), runEvents_append (runEvents_optional_setie _ m),
    runEvents_optional_setctl]
  rfl

/-! ## The statement -/

/-- Settles O36: the boot sequence ends in `State.booted`, whose registers the statement lists. -/
theorem bootSequenceLoadsTheKey : Obligations.BootSequenceLoadsTheKey := fun s k t m a =>
  ⟨s.booted k t m a, runEvents_bootEvents s k t m a, rfl, State.loadKey_keyLoaded s.resetEvent k, rfl, rfl, rfl, rfl, rfl, rfl⟩

end Sys2Proof.Machine
end
